-- ==== Sys2Proof/Word.lean ====
section
/-!
DEFINITION. The word types of the LDY-4800 and their plainest arithmetic (spec 00 R4: bit 0 is the
least significant bit; multi-byte values are little-endian).
-/
namespace Sys2Proof

/-- A byte of memory. -/
abbrev Byte := BitVec 8

/-- A 32-bit word: a vector lane, a predicate, an instruction word (R54, R78). -/
abbrev Word32 := BitVec 32

/-- A 64-bit word: a scalar register (R119). -/
abbrev Word64 := BitVec 64

/-- A virtual address or program counter, held in 64 bits; the space has 55 (R94, R143). -/
abbrev Addr := BitVec 64

/-- A 32-bit mask of lanes; bit L is lane L (R27). -/
abbrev LaneMask := BitVec 32

end Sys2Proof
end

