-- ==== Sys2Proof/Machine/Cells.lean ====
section
/-!
DEFINITION. Sparse tables of words in one canonical form: memory, register files, scratchpad, slices and
tile slots are lists of (key, value) with keys strictly rising and no entry equal to zero, which is what
an unlisted key reads as.
-/
namespace Sys2Proof.Machine

/-- A sparse table of `n`-bit values; an unlisted key reads as zero. -/
abbrev Cells (n : Nat) := List (Nat × BitVec n)

/-- Bytes by address: the host's cells. What an unlisted address reads as is 0 (log entry 4). -/
abbrev Memory := List Host.Cell

/-- The value at a key. -/
def Cells.get {n : Nat} : Cells n → Nat → BitVec n
  | [], _ => 0#n
  | (a, v) :: r, k => if a = k then v else Cells.get r k

/-- Writes a key, keeping the canonical form. -/
def Cells.set {n : Nat} : Cells n → Nat → BitVec n → Cells n
  | [], k, x => if x = 0#n then [] else [(k, x)]
  | (a, v) :: r, k, x =>
    if k < a then (if x = 0#n then (a, v) :: r else (k, x) :: (a, v) :: r)
    else if k = a then (if x = 0#n then r else (k, x) :: r)
    else (a, v) :: Cells.set r k x

/-- The canonical form: keys strictly rising, no zero value listed. -/
def Cells.wf {n : Nat} : Cells n → Bool
  | [] => true
  | (a, v) :: r => (v != 0#n) && r.all (fun e => decide (a < e.1)) && Cells.wf r

/-- The canonical form of memory. -/
def Memory.wf (m : Memory) : Bool := Cells.wf m

/-- `n` values from `k` on, lowest key first. -/
def Cells.getMany {n : Nat} (m : Cells n) (k : Nat) : Nat → List (BitVec n)
  | 0 => []
  | c + 1 => Cells.get m k :: Cells.getMany m (k + 1) c

/-- Writes a list of values from `k` on. -/
def Cells.setMany {n : Nat} (m : Cells n) (k : Nat) : List (BitVec n) → Cells n
  | [] => m
  | x :: xs => Cells.setMany (Cells.set m k x) (k + 1) xs

/-- Drops every key in `[lo, hi)`. -/
def Cells.clear {n : Nat} (m : Cells n) (lo hi : Nat) : Cells n :=
  m.filter (fun e => e.1 < lo || hi ≤ e.1)

/-- The entries of `[lo, hi)`, with keys counted from `lo`. -/
def Cells.slice {n : Nat} (m : Cells n) (lo hi : Nat) : Cells n :=
  (m.filter (fun e => lo ≤ e.1 && e.1 < hi)).map (fun e => (e.1 - lo, e.2))

/-- Writes the entries of a table at keys counted from `base`. -/
def Cells.blit {n : Nat} (m : Cells n) (base : Nat) : Cells n → Cells n
  | [] => m
  | (k, x) :: r => Cells.blit (Cells.set m (base + k) x) base r

/-- Replaces `[lo, hi)` by the entries of a table whose keys count from `lo`. -/
def Cells.splice {n : Nat} (m : Cells n) (lo hi : Nat) (img : Cells n) : Cells n :=
  m.filter (fun e => e.1 < lo) ++ (img.filter (fun e => e.1 < hi - lo)).map (fun e => (lo + e.1, e.2)) ++ m.filter (fun e => hi ≤ e.1)

/-- The table of a list of values, the first at key `k`. -/
def Cells.ofList {n : Nat} (k : Nat) : List (BitVec n) → Cells n
  | [] => []
  | x :: xs => if x = 0#n then Cells.ofList (k + 1) xs else (k, x) :: Cells.ofList (k + 1) xs

/-- The little-endian natural number of a list of bytes (R4). -/
def leNat : List Byte → Nat
  | [] => 0
  | b :: r => b.toNat + 256 * leNat r

/-- The `n` little-endian bytes of a number (R4). -/
def leBytes : Nat → Nat → List Byte
  | 0, _ => []
  | n + 1, x => BitVec.ofNat 8 x :: leBytes n (x / 256)

/-- `n` bytes at `a` as a little-endian number. -/
def Cells.readLE (m : Cells 8) (a n : Nat) : Nat := leNat (Cells.getMany m a n)

/-- Stores `n` little-endian bytes of a number at `a`. -/
def Cells.writeLE (m : Cells 8) (a n x : Nat) : Cells 8 := Cells.setMany m a (leBytes n x)

end Sys2Proof.Machine
end

