-- ==== Sys2Proof/Syntax.lean ====
section
/-!
DEFINITION. Syntax: the instruction forms of spec 04 (R88 to R98) and one inductive with a constructor
per row of the opcode table. An instruction carries the fields of its form as the words hold them, with
the payloads of its prefixes; an event carries what it acts on.
-/
namespace Sys2Proof

/-- Form A, three-register vector (R88): d, a, b, variant, BS. Accepts no prefix (R98). -/
structure FormA where
  d : BitVec 7
  a : BitVec 7
  b : BitVec 7
  var : BitVec 2
  bs : BitVec 1
  deriving DecidableEq, Repr

/-- Form B, register and immediate, with the payload of an IMM prefix (R88, R96). -/
structure FormB where
  d : BitVec 7
  a : BitVec 7
  imm10 : BitVec 10
  imm : Option (BitVec 24)
  deriving DecidableEq, Repr

/-- Form C, scalar: d, a, b, fn or imm6; `a`, `b` and `fn` together are W18 (R88). -/
structure FormC where
  d : BitVec 6
  a : BitVec 6
  b : BitVec 6
  fn : BitVec 6
  imm : Option (BitVec 24)
  deriving DecidableEq, Repr

/-- Form D, short memory: data, offset, object, lookahead; EXT payload as the prefix word holds it (R88, R97). -/
structure FormD where
  data : BitVec 7
  off : BitVec 7
  obj : BitVec 6
  la : BitVec 4
  imm : Option (BitVec 24)
  ext : Option (BitVec 24)
  deriving DecidableEq, Repr

/-- Form E, long: the base word's fields and the extension word of R91. -/
structure FormE where
  d : BitVec 7
  a : BitVec 7
  obj : BitVec 6
  sub : BitVec 4
  ord : BitVec 3
  sco : BitVec 3
  opr : BitVec 5
  typ : BitVec 4
  la : BitVec 4
  x : BitVec 13
  imm : Option (BitVec 24)
  ext : Option (BitVec 24)
  deriving DecidableEq, Repr

/-- Form F, tile: hd, ha, hb, lookahead, modifiers (R88, R93). Accepts no prefix. -/
structure FormF where
  hd : BitVec 5
  ha : BitVec 5
  hb : BitVec 5
  la : BitVec 4
  mods : BitVec 5
  deriving DecidableEq, Repr

/-- Form G, branch: predicate, negate, signed word offset (R88, R94). -/
structure FormG where
  pred : BitVec 3
  neg : BitVec 1
  off : BitVec 20
  imm : Option (BitVec 24)
  deriving DecidableEq, Repr

/-- Form W, move and convert: group widths and selector (R88, R90). Accepts no prefix. -/
structure FormW where
  d : BitVec 7
  a : BitVec 7
  wd : BitVec 2
  wa : BitVec 2
  sel : BitVec 6
  deriving DecidableEq, Repr

/-- Form H, system, queue, counter, fabric: sd, sa, sb and the nine-bit field (R88). -/
structure FormH where
  d : BitVec 5
  a : BitVec 5
  b : BitVec 5
  fn : BitVec 9
  imm : Option (BitVec 24)
  ext : Option (BitVec 24)
  deriving DecidableEq, Repr

/-- Where an event's message comes from: the k-th message this device holds, or one from outside it. -/
inductive Src (α : Type) where
  | queued (k : Nat)
  | outside (x : α)
  deriving DecidableEq, Repr

/-- A deferred record (R288). -/
structure DefRec where
  word : BitVec 46
  op : BitVec 6
  tag : BitVec 12
  lo : Word32
  hi : Word32
  deriving DecidableEq, Repr

/-- A shipped bin: its source cataloguer (device in [11:6], gallery in [5:0], R338) and its records. -/
structure ShippedBin where
  source : BitVec 12
  recs : List DefRec
  deriving DecidableEq, Repr

/-- A close-T message or its acknowledgement: source and tag, and the local channel it concerns or the
device number, 256 + d, of a remote conservator (R341). -/
structure CloseMsg where
  source : BitVec 12
  tag : BitVec 12
  dest : Nat
  deriving DecidableEq, Repr

/-- One contribution packet (R360, R361, R368). -/
structure Contribution where
  sender : BitVec 6
  ident : Nat
  grp : BitVec 8
  epoch : BitVec 16
  key : Word64
  typ : BitVec 4
  chunk : Nat
  topk : Bool
  words : List (Nat × Word32)
  deriving DecidableEq, Repr

/-- A COLLPULL request to a held slot: lanes with their window offsets (R370). -/
structure PullRequest where
  sender : BitVec 6
  ident : Nat
  grp : BitVec 8
  epoch : BitVec 16
  lanes : List (Nat × Nat)
  fin : Bool
  deriving DecidableEq, Repr

/-- A delivery of a slot to one destination (R362, R363). -/
structure Delivery where
  grp : BitVec 8
  key : Word64
  epoch : BitVec 16
  chunk : Nat
  words : List (Nat × Word32)
  mask : Word64
  info : Word64
  deriving DecidableEq, Repr

/-- A memory-kind store packet: home physical addresses with the bytes stored (R371), and which 64 KB pages of theirs the sender maps
as deferred (R234). -/
structure NetStore where
  sender : BitVec 6
  ident : Nat
  stores : List (Nat × List Byte)
  deferred : List Nat := []
  deriving DecidableEq, Repr

/-- A memory-kind load: lanes with home physical addresses, and the bytes each reads (R372), and the pages mapped as deferred. -/
structure NetLoad where
  sender : BitVec 6
  ident : Nat
  lanes : List (Nat × Nat)
  size : Nat
  deferred : List Nat := []
  deriving DecidableEq, Repr

/-- What a fabric response says (R360, R370 to R374). -/
inductive Answer where
  | accepted
  | late
  | refused
  | stored
  | remErr
  | loaded (lanes : List (Nat × Nat))
  | pulled (lanes : List (Nat × Nat)) (late : Bool)
  | dropped
  deriving DecidableEq, Repr

/-- A fabric response on its way to the request `ident` of device `dest`. -/
structure Response where
  dest : BitVec 6
  ident : Nat
  answer : Answer
  deriving DecidableEq, Repr

/-- A faulting party that retries (R343). -/
inductive RetryParty where
  | warp (core w : Nat)
  | job (core j : Nat)
  | deviceEvent (k : Nat)
  deriving DecidableEq, Repr

/-- Whose commit: the one of the block on a core, the implicit one of the k-th grid in flight, or that of the k-th
saved block (R291, R331, R264). -/
inductive CommitParty where
  | block (core : Nat)
  | grid (k : Nat)
  | saved (k : Nat)
  deriving DecidableEq, Repr

/-- The host ports (R449). -/
inductive Port where
  | a
  | b
  deriving DecidableEq, Repr

/-- A host CXL.mem access (R224). -/
inductive HostAccess where
  | read (size : Nat)
  | write (bytes : List Byte)
  deriving DecidableEq, Repr

/-- A place ECC protects (R437, R461): words of DRAM, of the shared cache, of the vault cache and of a save frame are named by their
physical word, a packet by its viaduct. -/
inductive Place where
  | vreg (core w reg lane : Nat)
  | sreg (core w reg : Nat)
  | pred (core w reg : Nat)
  | slice (core w lane word : Nat)
  | scratch (core word : Nat)
  | fifo (core bank entry : Nat)
  | slot (core slot row : Nat)
  | plane (core p : Nat)
  | memory (word : Nat)
  | cached (word : Nat)
  | vaultCached (word : Nat)
  | packet (viaduct : Nat)
  | frame (word : Nat)
  deriving DecidableEq, Repr

/-- The table of operations and events (opcode_table.json), one constructor per row: 184 instruction rows,
each carrying the fields of its form with its prefixes, and 79 event rows carrying what the event names. -/
inductive Instr where
  /-- SADD (R133). -/
  | sadd (f : FormC)
  /-- SSUB (R133). -/
  | ssub (f : FormC)
  /-- SMUL (R133). -/
  | smul (f : FormC)
  /-- SMULH (R134). -/
  | smulh (f : FormC)
  /-- SDIV (R134). -/
  | sdiv (f : FormC)
  /-- SREM (R134). -/
  | srem (f : FormC)
  /-- SAND (R133). -/
  | sand (f : FormC)
  /-- SOR (R133). -/
  | sor (f : FormC)
  /-- SXOR (R133). -/
  | sxor (f : FormC)
  /-- SSHL (R133). -/
  | sshl (f : FormC)
  /-- SSHR (R133). -/
  | sshr (f : FormC)
  /-- SSRA (R133). -/
  | ssra (f : FormC)
  /-- SMIN (R134). -/
  | smin (f : FormC)
  /-- SMAX (R134). -/
  | smax (f : FormC)
  /-- SCMP (R135). -/
  | scmp (f : FormC)
  /-- SSEL (R136). -/
  | ssel (f : FormC)
  /-- SMOV (R137). -/
  | smov (f : FormC)
  /-- SLI (R137). -/
  | sli (f : FormC)
  /-- SADDR (R138). -/
  | saddr (f : FormC)
  /-- SCLZ (R137). -/
  | sclz (f : FormC)
  /-- SPOPC (R137). -/
  | spopc (f : FormC)
  /-- SBFE (R139). -/
  | sbfe (f : FormC)
  /-- SBFI (R139). -/
  | sbfi (f : FormC)
  /-- SGET (R122). -/
  | sget (f : FormC)
  /-- BRA (R145). -/
  | bra (f : FormG)
  /-- BR (R146). -/
  | br (f : FormC)
  /-- BRX (R147). -/
  | brx (f : FormA)
  /-- CALL (R149). -/
  | call (f : FormG)
  /-- CALLX (R149). -/
  | callx (f : FormA)
  /-- RET (R150). -/
  | ret (f : FormH)
  /-- RETV (R150). -/
  | retv (f : FormA)
  /-- LOOP (R148). -/
  | loop (f : FormC)
  /-- YIELD (R157). -/
  | yield (f : FormH)
  /-- REGION (R158). -/
  | region (f : FormH)
  /-- RECONV (R154). -/
  | reconv (f : FormG)
  /-- BSYNC (R155). -/
  | bsync (f : FormH)
  /-- TRAP (R159). -/
  | trap (f : FormH)
  /-- SLEEP (R160). -/
  | sleep (f : FormH)
  /-- GETPC (R161). -/
  | getpc (f : FormC)
  /-- NOP (R161). -/
  | nop (f : FormH)
  /-- VADD (R166). -/
  | vadd (f : FormA)
  /-- VSUB (R166). -/
  | vsub (f : FormA)
  /-- VMUL (R166). -/
  | vmul (f : FormA)
  /-- VMULH (R166). -/
  | vmulh (f : FormA)
  /-- VMAD (R166). -/
  | vmad (f : FormA)
  /-- VMIN (R166). -/
  | vmin (f : FormA)
  /-- VMAX (R166). -/
  | vmax (f : FormA)
  /-- VABS (R166). -/
  | vabs (f : FormA)
  /-- VAND (R166). -/
  | vand (f : FormA)
  /-- VOR (R166). -/
  | vor (f : FormA)
  /-- VXOR (R166). -/
  | vxor (f : FormA)
  /-- VSHL (R167). -/
  | vshl (f : FormA)
  /-- VSHR (R167). -/
  | vshr (f : FormA)
  /-- VSRA (R167). -/
  | vsra (f : FormA)
  /-- VSRAR (R76). -/
  | vsrar (f : FormA)
  /-- VADDS (R166). -/
  | vadds (f : FormA)
  /-- VSUBS (R166). -/
  | vsubs (f : FormA)
  /-- VDOT2S (R168). -/
  | vdot2s (f : FormA)
  /-- VCMP (R170). -/
  | vcmp (f : FormA)
  /-- VSEL (R171). -/
  | vsel (f : FormA)
  /-- VMOV (R172). -/
  | vmov (f : FormW)
  /-- VLI (R173). -/
  | vli (f : FormB)
  /-- VBFE (R169). -/
  | vbfe (f : FormA)
  /-- VPOPC (R166). -/
  | vpopc (f : FormA)
  /-- FADD (R174). -/
  | fadd (f : FormA)
  /-- FSUB (R174). -/
  | fsub (f : FormA)
  /-- FMUL (R174). -/
  | fmul (f : FormA)
  /-- FFMA (R174). -/
  | ffma (f : FormA)
  /-- FMIN (R71). -/
  | fmin (f : FormA)
  /-- FMAX (R71). -/
  | fmax (f : FormA)
  /-- FCMP (R175). -/
  | fcmp (f : FormA)
  /-- FRCP (R70). -/
  | frcp (f : FormA)
  /-- FRSQ (R70). -/
  | frsq (f : FormA)
  /-- FEXP2 (R70). -/
  | fexp2 (f : FormA)
  /-- FLOG2 (R70). -/
  | flog2 (f : FormA)
  /-- FCVT (R178). -/
  | fcvt (f : FormW)
  /-- ICVT (R179). -/
  | icvt (f : FormW)
  /-- PKADD (R174). -/
  | pkadd (f : FormA)
  /-- PKFMA (R174). -/
  | pkfma (f : FormA)
  /-- FCLASS (R176). -/
  | fclass (f : FormA)
  /-- VSLIDE (R181). -/
  | vslide (f : FormA)
  /-- VSHUF (R182). -/
  | vshuf (f : FormA)
  /-- VBCAST (R183). -/
  | vbcast (f : FormA)
  /-- VREDUCE (R185). -/
  | vreduce (f : FormA)
  /-- VSCAN (R186). -/
  | vscan (f : FormA)
  /-- VOTE (R187). -/
  | vote (f : FormA)
  /-- PSET (R188). -/
  | pset (f : FormA)
  /-- PMOV (R189). -/
  | pmov (f : FormA)
  /-- XCVT (R197). -/
  | xcvt (f : FormE)
  /-- XPACK (R199). -/
  | xpack (f : FormW)
  /-- XUNPACK (R200). -/
  | xunpack (f : FormW)
  /-- XTOPK (R201). -/
  | xtopk (f : FormE)
  /-- XCRC (R202). -/
  | xcrc (f : FormA)
  /-- XSORT (R203). -/
  | xsort (f : FormE)
  /-- VMATCH (R190). -/
  | vmatch (f : FormA)
  /-- VLANE (R191). -/
  | vlane (f : FormA)
  /-- LD (R270). -/
  | ld (f : FormD)
  /-- ST (R270). -/
  | st (f : FormD)
  /-- LDP (R207). -/
  | ldp (f : FormD)
  /-- STP (R207). -/
  | stp (f : FormD)
  /-- LDS (R270). -/
  | lds (f : FormD)
  /-- STS (R270). -/
  | sts (f : FormD)
  /-- LDG (R270). -/
  | ldg (f : FormD)
  /-- STG (R270). -/
  | stg (f : FormD)
  /-- SPADD (R277). -/
  | spadd (f : FormE)
  /-- ATOM (R274). -/
  | atom (f : FormE)
  /-- ATOMC (R275). -/
  | atomc (f : FormE)
  /-- ATOMS (R274). -/
  | atoms (f : FormE)
  /-- RWLRD (R279). -/
  | rwlrd (f : FormE)
  /-- RWLWR (R279). -/
  | rwlwr (f : FormE)
  /-- RWLUP (R279). -/
  | rwlup (f : FormE)
  /-- RWLREL (R279). -/
  | rwlrel (f : FormE)
  /-- FENCE (R251). -/
  | fence (f : FormH)
  /-- CPY (R282). -/
  | cpy (f : FormE)
  /-- CPYG (R283). -/
  | cpyg (f : FormE)
  /-- CPYW (R287). -/
  | cpyw (f : FormH)
  /-- DST (R290). -/
  | dst (f : FormE)
  /-- COMMIT (R291). -/
  | commit (f : FormH)
  /-- PREF (R273). -/
  | pref (f : FormD)
  /-- CCTL_IFETCH (R293). -/
  | cctlIfetch (f : FormH)
  /-- CCTL_FLUSH (R293). -/
  | cctlFlush (f : FormH)
  /-- CCTL_WB (R293). -/
  | cctlWb (f : FormH)
  /-- BANKCFG (R294). -/
  | bankcfg (f : FormH)
  /-- FPUT (R272). -/
  | fput (f : FormD)
  /-- FGET (R272). -/
  | fget (f : FormD)
  /-- LDU (R271). -/
  | ldu (f : FormD)
  /-- STU (R271). -/
  | stu (f : FormD)
  /-- ATOMX (R276). -/
  | atomx (f : FormE)
  /-- TALLOC (R300). -/
  | talloc (f : FormF)
  /-- TFREE (R301). -/
  | tfree (f : FormF)
  /-- THAND (R302). -/
  | thand (f : FormH)
  /-- TTAKE (R303). -/
  | ttake (f : FormH)
  /-- TLD (R306). -/
  | tld (f : FormH)
  /-- TST (R306). -/
  | tst (f : FormH)
  /-- TLDW (R309). -/
  | tldw (f : FormF)
  /-- TSWAP (R310). -/
  | tswap (f : FormF)
  /-- TMMA (R311). -/
  | tmma (f : FormF)
  /-- TMMAC (R313). -/
  | tmmac (f : FormF)
  /-- TZERO (R315). -/
  | tzero (f : FormF)
  /-- TSCALE (R316). -/
  | tscale (f : FormF)
  /-- TTRANS (R315). -/
  | ttrans (f : FormF)
  /-- TCVT (R317). -/
  | tcvt (f : FormH)
  /-- TQUANT (R318). -/
  | tquant (f : FormH)
  /-- TADD (R315). -/
  | tadd (f : FormF)
  /-- TMUL (R315). -/
  | tmul (f : FormF)
  /-- TRED (R319). -/
  | tred (f : FormF)
  /-- TABSMAX (R319). -/
  | tabsmax (f : FormF)
  /-- TGETROW (R307). -/
  | tgetrow (f : FormH)
  /-- TSETROW (R307). -/
  | tsetrow (f : FormH)
  /-- TDRAIN (R320). -/
  | tdrain (f : FormH)
  /-- BARINIT (R418). -/
  | barinit (f : FormH)
  /-- BARENROL (R422). -/
  | barenrol (f : FormH)
  /-- BARARRIVE (R419). -/
  | bararrive (f : FormH)
  /-- BAREXPECT (R420). -/
  | barexpect (f : FormH)
  /-- BARWAIT (R421). -/
  | barwait (f : FormH)
  /-- STAMPTRY (R425). -/
  | stamptry (f : FormH)
  /-- STAMPSET (R425). -/
  | stampset (f : FormH)
  /-- PERF_CTR (R428). -/
  | perfCtr (f : FormH)
  /-- PERF_MCFG (R428). -/
  | perfMcfg (f : FormH)
  /-- PERF_MRD (R428). -/
  | perfMrd (f : FormH)
  /-- PERF_MCLR (R428). -/
  | perfMclr (f : FormH)
  /-- SPAWN (R346). -/
  | spawn (f : FormH)
  /-- LAUNCH (R345). -/
  | launch (f : FormH)
  /-- JOIN (R347). -/
  | join (f : FormH)
  /-- EXIT (R348). -/
  | exit (f : FormH)
  /-- QDEPTH (R349). -/
  | qdepth (f : FormH)
  /-- PARK (R350). -/
  | park (f : FormH)
  /-- COLLPUSH (R368). -/
  | collpush (f : FormE)
  /-- COLLPULL (R370). -/
  | collpull (f : FormE)
  /-- COLLWAIT (R374). -/
  | collwait (f : FormH)
  /-- COLLWAIT_STAT (R374). -/
  | collwaitStat (f : FormH)
  /-- NETST (R371). -/
  | netst (f : FormE)
  /-- NETLD (R372). -/
  | netld (f : FormE)
  /-- COLLGRP (R375). -/
  | collgrp (f : FormH)
  /-- COLLGRP_CLR (R375). -/
  | collgrpClr (f : FormH)
  /-- OBJSET (R388). -/
  | objset (f : FormH)
  /-- OBJSET_CLR (R388). -/
  | objsetClr (f : FormH)
  /-- OBJGET (R389). -/
  | objget (f : FormH)
  /-- RWLOAD (R408). -/
  | rwload (f : FormH)
  /-- FEAT (R390). -/
  | feat (f : FormC)
  /-- TLBINV_VA (R391). -/
  | tlbinvVa (f : FormH)
  /-- TLBINV_ALL (R391). -/
  | tlbinvAll (f : FormH)
  /-- TLBINV_OBJ (R391). -/
  | tlbinvObj (f : FormH)
  /-- CSR (R392). -/
  | csr (f : FormH)
  /-- ILLEGAL_INSTRUCTION (R100). -/
  | illegalInstruction (detail : BitVec 16) (offset : Nat)
  /-- ILLEGAL_ENCODING (R101). -/
  | illegalEncoding (detail : BitVec 16) (offset : Nat)
  /-- GRID_COMPLETION (R331). -/
  | gridCompletion (grid : Nat)
  /-- DISPENSE (R328). -/
  | dispense (die core : Nat)
  /-- STAGGER_EXPIRY (R44). -/
  | staggerExpiry (core : Nat)
  /-- ISSUE_SELECT (R332). -/
  | issueSelect (core warp : Nat)
  /-- LONG_LATENCY_STALL (R333). -/
  | longLatencyStall (core warp : Nat)
  /-- PENDING_WAIT_EXCHANGE (R333). -/
  | pendingWaitExchange (core warp : Nat)
  /-- LOAD_RESPONSE (R268). -/
  | loadResponse (core warp load : Nat)
  /-- STORE_PERFORMED (R239). -/
  | storePerformed (core warp store : Nat)
  /-- ATOMIC_RESPONSE (R274). -/
  | atomicResponse (core warp : Nat)
  /-- FENCE_COMPLETE (R252). -/
  | fenceComplete (core warp : Nat)
  /-- FENCE_CONFLICT (R253). -/
  | fenceConflict (core warp : Nat)
  /-- SLEEP_EXPIRY (R160). -/
  | sleepExpiry (core warp : Nat)
  /-- BARWAIT_BOUND_EXPIRY (R421). -/
  | barwaitBoundExpiry (core warp : Nat)
  /-- BARWAIT_OBSERVE (R421). -/
  | barwaitObserve (core warp : Nat)
  /-- XFORM_ACCEPT (R192). -/
  | xformAccept (core : Nat)
  /-- XFORM_COMPLETE (R193). -/
  | xformComplete (core warp : Nat)
  /-- TILE_COMPLETE (R305). -/
  | tileComplete (core warp : Nat)
  /-- WINDOW_MATCH (R402). -/
  | windowMatch (core warp : Nat)
  /-- BANK_MODE_CHANGE_COMPLETE (R214). -/
  | bankModeChangeComplete (core : Nat)
  /-- JOB_START (R255). -/
  | jobStart (core job : Nat)
  /-- JOB_COMPLETE (R282). -/
  | jobComplete (core job : Nat)
  /-- JOB_SUSPEND (R286). -/
  | jobSuspend (core job : Nat)
  /-- JOB_FAULT (R286). -/
  | jobFault (core job : Nat)
  /-- FAULT_RETRY (R343). -/
  | faultRetry (party : RetryParty)
  /-- PREEMPT_TIMEOUT (R47). -/
  | preemptTimeout (core warp : Nat)
  /-- SAVE_BLOCK (R444). -/
  | saveBlock (core : Nat)
  /-- CATALOGUER_TAKE (R335). -/
  | cataloguerTake (core : Nat)
  /-- BIN_PARK (R337). -/
  | binPark (bin : Nat)
  /-- REMOTE_BIN_FORWARD (R337). -/
  | remoteBinForward (bin : Src ShippedBin)
  /-- CLOSE_T (R341). -/
  | closeT (msg : Src CloseMsg)
  /-- COMMIT_ACK (R341). -/
  | commitAck (ack : Src CloseMsg)
  /-- COMMIT_REMOTE_TIMEOUT (R292). -/
  | commitRemoteTimeout (party : CommitParty)
  /-- TAG_WAIT_TIMEOUT (R292). -/
  | tagWaitTimeout (core : Nat)
  /-- TAG_HOLD_EXPIRY (R340). -/
  | tagHoldExpiry (gallery : Nat) (tag : BitVec 12)
  /-- TAG_GRANT (R292). -/
  | tagGrant (gallery : Nat)
  /-- CONTRIBUTION_ARRIVAL (R360). -/
  | contributionArrival (packet : Src Contribution)
  /-- SLOT_TIMEOUT (R362). -/
  | slotTimeout (slot : Nat)
  /-- INGRESS_HOLD_TIMEOUT (R360). -/
  | ingressHoldTimeout (held : Nat)
  /-- DELIVERY_WRITE (R362). -/
  | deliveryWrite (delivery : Src Delivery)
  /-- PULL_ARRIVAL (R370). -/
  | pullArrival (request : Src PullRequest)
  /-- HOLD_RETIRE_TIMEOUT (R364). -/
  | holdRetireTimeout (slot : Nat)
  /-- NETST_ARRIVAL (R371). -/
  | netstArrival (request : Src NetStore)
  /-- NETLD_ARRIVAL (R372). -/
  | netldArrival (request : Src NetLoad)
  /-- FABRIC_RESPONSE (R367). -/
  | fabricResponse (response : Src Response)
  /-- FABRIC_REQUEST_TIMEOUT (R355). -/
  | fabricRequestTimeout (request : Nat)
  /-- VCH_MODE_CHANGE_COMPLETE (R128). -/
  | vchModeChangeComplete (stack : Nat)
  /-- MONITOR_SAMPLE (R427). -/
  | monitorSample (gallery monitor value : Nat)
  /-- LIMITER_SAMPLE (R459). -/
  | limiterSample (wing current temperature : Nat)
  /-- VCH_MODE_WRITE (R128). -/
  | vchModeWrite (port : Port) (stack : Nat) (value : Word64)
  /-- VCH_FP_WRITE (R128). -/
  | vchFpWrite (port : Port) (stack : Nat) (value : Word64)
  /-- HOST_MEM_ACCESS (R224). -/
  | hostMemAccess (pa : Nat) (access : HostAccess)
  /-- POWER_UP (R455). -/
  | powerUp
  /-- BOOTGO (R456). -/
  | bootgo (port : Port) (value : Word64)
  /-- FIRMWARE_VERIFIED (R456). -/
  | firmwareVerified
  /-- FIRMWARE_RUNNING (R456). -/
  | firmwareRunning
  /-- LINK_DOWN (R451). -/
  | linkDown (port : Port)
  /-- SEM_ACQUIRE (R451). -/
  | semAcquire (port : Port) (sem : Nat)
  /-- SEM_RELEASE (R451). -/
  | semRelease (port : Port) (sem : Nat)
  /-- ERR_CLEAR (R450). -/
  | errClear (port : Port) (value : Word64)
  /-- CTXEN_WRITE (R454). -/
  | ctxenWrite (port : Port) (value : Word64)
  /-- QAPP (R452). -/
  | qapp (port : Port) (value : Word64)
  /-- TAILINC (R453). -/
  | tailinc (port : Port) (value : Word64)
  /-- PRE_START (R454). -/
  | preStart (port : Port) (value : Word64)
  /-- QUIESCE_GALLERY (R460). -/
  | quiesceGallery (port : Port) (gallery : Nat)
  /-- RETURN_GALLERY (R460). -/
  | returnGallery (port : Port) (gallery : Nat)
  /-- SUBSTITUTE (R460). -/
  | substitute (port : Port) (core spare : Nat)
  /-- ROW_REPAIR (R460). -/
  | rowRepair (port : Port) (stack channel row : Nat)
  /-- SPAN_RETRAIN (R460). -/
  | spanRetrain (port : Port) (span : Nat)
  /-- MONITOR_RESET (R450). -/
  | monitorReset (port : Port) (value : Word64)
  /-- MONCFG (R450). -/
  | moncfg (port : Port) (value : Word64)
  /-- ECC_CLEAR (R461). -/
  | eccClear (port : Port) (counter : Nat) (value : Word64)
  /-- ATT (R457). -/
  | att (port : Port) (value : Word64)
  /-- REGISTER_WRITE (R450). -/
  | registerWrite (port : Port) (offset : Nat) (value : Word64)
  /-- SOFT_ERROR (R437). -/
  | softError (place : Place) (correctable : Bool)
  /-- POWER_LOSS (R455). -/
  | powerLoss
  /-- SPAN_RETRAIN_COMPLETE (R460). -/
  | spanRetrainComplete (span : Nat)
  /-- ROW_REPAIR_COMPLETE (R460). -/
  | rowRepairComplete (stack channel row : Nat)
  deriving DecidableEq, Repr, Inhabited

end Sys2Proof
end

