-- ==== Sys2Proof/Machine/State.lean ====
section
/-!
DEFINITION. The state of one LDY-4800: memory and tables, the occupied cores with their blocks and warps,
the deferred path, the viaduct, the host's registers. Plain data; a field's docstring names the rule that
gives the machine that state, and INVENTORY.md lists every field with its reset value.
-/
namespace Sys2Proof.Machine

/-- What a held split waits for (R150, R154, R155). -/
inductive HoldKind where
  | ret
  | retv (a : BitVec 7) (b : BitVec 6) (signed : Bool)
  | reconv (target : Addr)
  | bsync (resume : Addr)
  deriving DecidableEq, Repr

/-- The state of a split (R27); an empty entry is an entry that is not in the ring. -/
inductive SplitState where
  | ready
  | running
  | held (why : HoldKind)
  deriving DecidableEq, Repr

/-- One path of a warp's lanes (R27). -/
structure Split where
  pc : Addr
  mask : LaneMask
  st : SplitState
  deriving DecidableEq, Repr

/-- A return-stack entry (R121). -/
structure RetEntry where
  addr : Addr
  mask : LaneMask
  deriving DecidableEq, Repr

/-- Where the warp stands inside a clause (R79, R80): header address and word, the word index of the next
instruction's first word, the words of the instructions still to issue as the fetch read them, the
effective mask (R85), and the place in program order of the clause's first event (R82). -/
structure Clause where
  header : Addr
  word : Word32
  idx : Nat
  todo : List (List Word32)
  eff : LaneMask
  start : Nat
  deriving DecidableEq, Repr

/-- A liveness descriptor as the core read it (R34). -/
structure LiveDesc where
  index : Nat
  v : BitVec 128
  s : BitVec 64
  h : BitVec 32
  p : Bool
  g : BitVec 192
  deriving DecidableEq, Repr

/-- The status ST of a handle map entry (R296). -/
inductive HandleSt where
  | free
  | owned
  | handed
  | freed
  deriving DecidableEq, Repr

/-- A handle map entry (R296); `rb` is RB, row bytes ÷ 16 − 1. -/
structure HandleEntry where
  slot : Nat
  v : Bool
  rslot : Nat
  rv : Bool
  own : Nat
  tgt : Nat
  st : HandleSt
  fmt : BitVec 4
  acc : Bool
  rb : Nat
  rx : Int
  deriving DecidableEq, Repr

/-- The free entry: all fields zero. -/
def HandleEntry.zero : HandleEntry :=
  { slot := 0, v := false, rslot := 0, rv := false, own := 0, tgt := 0, st := .free, fmt := 0, acc := false, rb := 0, rx := 0 }

/-- A weight plane with its record (R308); `fromSlot` is the slot its SRC version lay in, `saved` that the
frame's image is its reload source (R314), `img` the 8 KB tile image. -/
structure Plane where
  valid : Bool
  fmt : BitVec 4
  rxw : Int
  t : Bool
  src : Nat
  stale : Bool
  k : Nat
  fromSlot : Nat
  saved : Bool
  img : Cells 8
  deriving DecidableEq, Repr

/-- The plane at placement (R308); what its image holds then is not stated: zero bytes (log entry 6). -/
def Plane.zero : Plane :=
  { valid := false, fmt := 0, rxw := 0, t := false, src := 0, stale := false, k := 64, fromSlot := 0, saved := false, img := [] }

/-- The matrix array's record (R308). -/
structure ArrayRec where
  act : Bool
  ownv : Bool
  ownw : Nat
  p0 : Plane
  p1 : Plane
  deriving DecidableEq, Repr

/-- The array record at placement. -/
def ArrayRec.zero : ArrayRec := { act := false, ownv := false, ownw := 0, p0 := .zero, p1 := .zero }

/-- How an access reaches this device's memory: through the pod aperture of the device itself (R352, R355); as a word of a deferred
page, which the vault cache serves (R234), or else at its home slice, with the cache class of R226. -/
structure Via where
  loop : Bool
  vault : Bool
  cls : Nat
  deriving DecidableEq, Repr

/-- A place an access is performed at (R239): physical bytes; a core's scratchpad, reached as such or through a gang window
(R217); a lane's slice; a byte range of a MASKPACK chunk (header, slot, offset in the chunk, and the header's
bytes once the access has read them; R232); an address of another device (R352); the value a performed access gave; an answer
that never came (R355); or an uncorrectable error met there, with its detail (R266, R437). -/
inductive Loc where
  | mem (via : Via) (pa : Nat)
  | bank (core off : Nat)
  | peer (core off : Nat)
  | slice (lane off : Nat)
  | packed (hvia : Via) (hdr : Nat) (svia : Via) (slot off : Nat) (seen : List Byte)
  | remote (home : BitVec 6) (pa : Nat)
  | got (x : Nat)
  | lost
  | bad (detail : BitVec 16)
  deriving DecidableEq, Repr

/-- A store not yet performed (R239, R268): its place in program order, its instruction's address, place and
bytes; for SPADD the type of the addition (R277); whether it is a release and whether it is seq_cst, and its scope (R246, R247). -/
structure StoreOp where
  seq : Nat
  pc : Addr
  loc : Loc
  bytes : List Byte
  add : Option (BitVec 4)
  rel : Bool
  sc : Bool
  sco : BitVec 3
  deriving DecidableEq, Repr

/-- An entry of a warp's store buffer: a store, or the mark of a pending FENCE (R251). -/
inductive BufEntry where
  | store (o : StoreOp)
  | fence
  deriving DecidableEq, Repr

/-- The newest pending FENCE (R252, R253): its place in program order and resume point, its order and scope, the earlier ones still
pending, by place and order, oldest first, the 128-byte sectors watched for
speculative reads, whether one of them has been invalidated, rollbacks to its resume point so far (R46). -/
structure FenceState where
  seq : Nat
  resume : Addr
  prior : List (Nat × BitVec 3)
  order : BitVec 3
  scope : BitVec 3
  watch : List Nat
  hit : Bool
  rollbacks : Nat
  deriving DecidableEq, Repr

/-- A value a completed operation writes. -/
inductive RegWrite where
  | v (reg lane : Nat) (x : Word32)
  | s (reg : Nat) (x : Word64)
  deriving DecidableEq, Repr

/-- A part of a TLD not yet read (R306): the lane whose event it is, its place and size, and the offsets in the
tile's image that its bytes go to, in equal parts. -/
structure TilePiece where
  lane : Nat
  va : Option Addr
  loc : Loc
  size : Nat
  offs : List Nat
  deriving DecidableEq, Repr

/-- The destination of an outstanding load. -/
inductive LoadDst where
  | v (reg words : Nat)
  | s (reg : Nat)
  deriving DecidableEq, Repr

/-- A lane of an access under way: its virtual address when it has one, and its place; `got` once performed. -/
structure LanePlace where
  lane : Nat
  va : Option Addr
  loc : Loc
  deriving DecidableEq, Repr

/-- A load not yet performed (R239, R268): its place in program order, its instruction's address, destination,
access size, lanes, whether it is an acquire, whether it may be performed speculatively behind a fence
(R252), whether it reads a deferred page (R261), whether it is a load of global memory (R427), and the clock when it issued (R333, R427). -/
structure LoadOp where
  seq : Nat
  pc : Addr
  since : Word64
  dst : LoadDst
  size : Nat
  lanes : List LanePlace
  acq : Bool
  plain : Bool
  dfr : Bool
  glob : Bool
  deriving DecidableEq, Repr

/-- What is left of an operation under way: the lanes of an atomic, with the value and the comparand of each (R274); the slot and image of a tile version with the
parts a load has still to read (R305, R306); a transform instruction in its quadrant's queue, with its parameter record, or
accepted, with what it will write (R192, R193); the lanes of a NETLD or COLLPULL (R370, R372); a TMMAC whose steps of the ranks
below `left` are still due, with the elements of the rows it updates (R313). -/
inductive OpBody where
  | atomic (size : Nat) (eff : LaneMask) (lanes : List LanePlace) (args : List (Nat × Nat × Nat))
  | tile (slot : Nat) (acc : Bool) (img : Cells 8) (todo : List TilePiece) (dfr : Bool)
  | xqueued (eff : LaneMask) (param : List Byte)
  | xaccepted (writes : List RegWrite) (flags sat : Word32)
  | fabric (pull : Bool) (reg words : Nat) (lanes : List LanePlace) (dfr : Bool)
  | chain (slot left : Nat) (rows : List (Nat × List Nat)) (img : Cells 8) (flags : Word32) (sat : Bool)
  deriving DecidableEq, Repr

/-- An instruction that has issued and not completed, loads apart: the warp goes on, and only instructions that the
scoreboard or an order holds wait for it (R86, R95, R193, R247, R305). -/
structure Op where
  seq : Nat
  pc : Addr
  instr : Instr
  since : Word64
  body : OpBody
  deriving DecidableEq, Repr

/-- The wait in which a whole warp stands: a COMMIT with its status register and the clock of its issue (R291); a bounded or
unbounded BARWAIT and a SLEEP with the clock at which they began and their length (R160, R421); a write of vch.mode(k) (R128). -/
inductive Outst where
  | commit (sd : Nat) (since : Word64)
  | barwait (pc : Addr) (eff : LaneMask) (g : Bool) (a : Word64) (token : BitVec 4) (bnd : Bool) (pd : Nat) (since : Word64) (bound : Word64)
  | sleep (since : Word64) (cycles : Nat)
  | vch (k : Nat)
  deriving DecidableEq, Repr

/-- What an instruction that waits at its issue holds on to: the faulting end of a wait that has failed (R214, R301, R303), the
handle it waits for (R301, R303), the rule entries it has read (R408), or the time since which its enqueue waits for a page (R327). -/
inductive Waiting where
  | failed (cls : BitVec 4) (detail : BitVec 16)
  | alloc (h : Nat)
  | take (h : Nat)
  | fifo (bank : Nat)
  | rules (bytes : List Byte)
  | queue (since : Word64)
  deriving DecidableEq, Repr

/-- Why a warp that waits at an instruction does, as the long-latency stalls of R333 ask: for a result of its own, for so many
cycles at least at this instruction, or not in a stall however long it waits. -/
inductive WaitKind where
  | result
  | long (n : Nat)
  | short
  deriving DecidableEq, Repr

/-- A held counter operation (R424): an expectation at a barrier object or a stamp. -/
inductive HeldOp where
  | expect (g : Bool) (loc : Loc) (bytes : Word32)
  | stamp (loc : Loc) (step : BitVec 48)
  deriving DecidableEq, Repr

/-- A deferred record before its tag is written (R288, R290): its destination bin (a channel, or 256 + d
for device d) and the record. -/
structure TentRec where
  bin : Nat
  rcd : DefRec
  deriving DecidableEq, Repr

/-- A fabric push (R36): tentative at the core until its region is confirmed. -/
inductive PushMsg where
  | contribution (c : Contribution)
  | store (n : NetStore)
  | fin (p : PullRequest)
  deriving DecidableEq, Repr

/-- A push with its destination device; `drain` marks the packets of a TDRAIN (R320), `sc` those of a NETST.seq_cst (R247), and
`src` names the fabric instruction by its place in program order and the clock of its issue (R427). -/
structure Push where
  dest : BitVec 6
  msg : PushMsg
  drain : Option Nat
  sc : Bool
  src : Option (Nat × Word64)
  deriving DecidableEq, Repr

/-- An enrolment slot (R422). -/
structure Enrol where
  g : Bool
  addr : Addr
  c : Nat
  a : Nat
  phase : BitVec 4
  deriving DecidableEq, Repr

/-- A fault: class, detail, address of the faulting word (none: the first word of the instruction that
issues), lowest lane reported, data address, access kind of R342, and for a rewritten group its report
(R430 to R433, R406). -/
structure FaultInfo where
  cls : BitVec 4
  detail : BitVec 16
  addr : Option Addr
  lane : Option Nat
  va : Option Addr
  kind : BitVec 2
  report : Word64
  deriving DecidableEq, Repr

/-- A replacement of a rewritten group (R400): its opcode and fields, and for an adjusted TMMA the handle whose RX starts
X with what is added. -/
structure Replacement where
  op : Nat
  f : FormF
  x : Option (Nat × Int)
  deriving DecidableEq, Repr

/-- The fate of a window's entry (R402): issue as written, skip because its group's last member issues the
group, or be that last member: the report of its faults, the earliest member's address, the replacements still to
execute, and the members for Bookkeep (R404, R406). -/
inductive PlanItem where
  | pass
  | absorbed
  | last (report : Word64) (first : Addr) (repl : List Replacement) (book : List (Nat × FormF))
  deriving DecidableEq, Repr

/-- Whether a warp has been asked to stop (R440, R47). -/
inductive StopState where
  | no
  | asked
  | stopped
  deriving DecidableEq, Repr

/-- The life of a warp (R443). -/
inductive Life where
  | live
  | exited
  | terminated
  deriving DecidableEq, Repr

/-- A region-entry checkpoint (R35). `handles` pairs a handle with its entry; `array` is present when the
warp owned the array (R314), and `planes` is what the array held at an entry where no warp did; `frame` is the split-stack
frame that holds the stack; `seq` the place of the entry in program order: what has issued before it is not rolled back. The
fence of R253 stays in the warp, since a region entry is passed only once the fence before it has completed (log entry 21). -/
structure Checkpoint where
  resume : Addr
  seq : Nat
  ring : List Split
  depth : Nat
  hw : List RetEntry
  desc : LiveDesc
  handles : List (Nat × HandleEntry)
  array : Option ArrayRec
  planes : Option ArrayRec
  frame : Bool
  deriving DecidableEq, Repr

/-- The state of one warp; `askedAt` is the clock when it was asked to stop (R47), `faultSince` when it began to wait for a
retry (R343), `waiting` since when and why it waits at its next instruction and `wait` what that instruction holds (R301, R333),
`lastIssue` when it last issued (R332), `polledAt` when its next instruction was last tried while it waited there,
`ahead` the clauses that its rewrite window has read (R396), `yielded` that its yield hint applies to the next selection (R87), `backCount` its taken
backward branches (R45). -/
structure Warp where
  num : Nat
  life : Life
  started : Bool
  ring : List Split
  depth : Nat
  hw : List RetEntry
  frame : Bool
  clause : Option Clause
  v : Cells 32
  s : Cells 64
  p : Cells 32
  fpflags : Word32
  satflag : Word32
  fs : Word64
  enrol : List (Option Enrol)
  counters : Cells 64
  slices : Cells 8
  desc : LiveDesc
  ckpt : Checkpoint
  tent : List TentRec
  pushes : List Push
  held : List HeldOp
  seq : Nat
  loads : List LoadOp
  buf : List BufEntry
  fence : Option FenceState
  ops : List Op
  outst : Option Outst
  waiting : Option (Word64 × WaitKind)
  wait : Option Waiting
  lastIssue : Word64
  polledAt : Word64
  yielded : Bool
  plan : List PlanItem
  ahead : List Clause
  stop : StopState
  askedAt : Word64
  faultWait : Bool
  faultSince : Word64
  backCount : Nat
  jobFault : Option FaultInfo
  dead : Option FaultInfo
  deriving DecidableEq, Repr

/-- A warp of a pending set: the clock since which it has been ready, or the present one, and the counts of backward branches
that the active warps had then (R45, R333). -/
structure Pend where
  num : Nat
  since : Word64
  marks : List (Nat × Nat)
  deriving DecidableEq, Repr

/-- The two sets of a quadrant, oldest first (R332), and its last exchange: when, and of which warps (R333). -/
structure Quad where
  active : List Nat
  pending : List Pend
  last : Option (Word64 × Nat × Nat)
  deriving DecidableEq, Repr

/-- The state of a job (R285, R286). -/
inductive JobState where
  | waiting
  | running
  | suspended
  deriving DecidableEq, Repr

/-- A range of bytes of a job's footprint: physical or scratchpad, from `lo` up to `hi` (R254). -/
structure Range where
  phys : Bool
  lo : Nat
  hi : Nat
  deriving DecidableEq, Repr

/-- The translation that a row of a job uses for a page of 64 KB (R386, R391). -/
structure JobPage where
  row : Nat
  page : Nat
  pa : Nat
  pte : Word64
  deriving DecidableEq, Repr

/-- An asynchronous copy (R281 to R286, R507): the descriptor and a CPYG's lane values as issued, its warp,
instruction address and place in program order, its place among the jobs and drains of the device (R255), its object with the
entry's words as checked at issue (none after a restore that could not read them), the displacement, the first row not yet written,
the 16-byte units, by row and position, that have been moved from there on, the CRC state over the rows before it, the clock when
it was suspended (R343), the translations its rows use, its footprint with `unknown` that a page had no physical range at issue
(R254) and `dfr` that it may read a deferred page (R261). -/
structure Job where
  gather : Bool
  toGlobal : Bool
  words : List Word32
  rows : List Word32
  warp : Nat
  pc : Addr
  seq : Nat
  ident : Nat
  obj : Nat
  entry : List Word64
  disp : Int
  state : JobState
  row : Nat
  moved : List ((Nat × Nat) × List Byte)
  crc : Word32
  since : Word64
  trans : List JobPage
  reads : List Range
  writes : List Range
  unknown : Bool
  dfr : Bool
  deriving DecidableEq, Repr

/-- A deferred tag with its source cataloguer (R338, R340). -/
structure TagRef where
  source : BitVec 12
  tag : BitVec 12
  deriving DecidableEq, Repr

/-- A confirmed record in the accession log; `none` while the block holds no tag (R288). -/
structure LogRec where
  bin : Nat
  rcd : DefRec
  tagged : Bool
  deriving DecidableEq, Repr

/-- A commit in progress (R291, R292, R341): the issuing warp with its status register (none for a grid's
implicit commit), the gallery and clock of its issue (R427), scope, the tags it closes, whether it still waits for a tag to close, whether it waits to take
the block's next tag and since when, whether its close messages are out and since when, the acknowledgements awaited, the status so far, the
first failing address, and for COMMIT.grid whether every block has issued it (R263). -/
structure Commit where
  warp : Option (Nat × Nat)
  issued : Option (Nat × Word64)
  scope : BitVec 3
  tags : List TagRef
  needTag : Bool
  wantTag : Bool
  tagSince : Word64
  sent : Bool
  sentSince : Word64
  awaited : List CloseMsg
  status : Word64
  failPa : Option Nat
  released : Bool
  deriving DecidableEq, Repr

/-- A mode change in flight: the warp that issued it and its place in program order, the banks named and their new mode (R214, R215,
R294). -/
structure BankChange where
  warp : Nat
  seq : Nat
  banks : BitVec 48
  mode : BitVec 2
  deriving DecidableEq, Repr

/-- What the launch record gave the block (R122, R322). -/
structure Launch where
  record : Addr
  cont : Option Addr
  block : Word32
  nblocks : Word32
  gang : Word32
  rank : Nat
  gsize : Nat
  ctx : Nat
  prio : Nat
  recPrio : BitVec 3
  coop : Bool
  sys : Bool
  frame : Word64
  regs : Nat
  nwarps : Nat
  tiles : Nat
  shape : Word32
  stko : Nat
  descBase : Addr
  dcnt : Nat
  rule : Addr
  deriving DecidableEq, Repr

/-- The number of the warps' stack object: STKO, or 4,095 where that is 0 (R208, R322). -/
def Launch.stackObj (l : Launch) : Nat := if l.stko = 0 then 4095 else l.stko

/-- A stop procedure under way (R440): by a host request or by PARK with the continuation's address and JC. -/
inductive StopReq where
  | host
  | park (rcd : Addr) (jc : Word32)
  deriving DecidableEq, Repr

/-- A FIFO ring: its bank, HEAD, and the entries from HEAD on (R213). -/
structure Fifo where
  bank : Nat
  head : Nat
  words : List Word32
  deriving DecidableEq, Repr

/-- A block on its core; `fifoWait` lists the warps that wait at FIFO banks in the order of their arrival, with whether they put
(R272), `bankChanges` the mode changes in flight, oldest first (R294), `rwLast` the clock of the last write of
cr.rwperm and the warp that made it (R125). -/
structure Block where
  launch : Launch
  staggered : Bool
  warps : List Warp
  bankMode : Cells 2
  bankChanges : List BankChange
  rwperm : Word32
  rwLast : Option (Word64 × Nat)
  stagger : Word32
  scratch : Cells 8
  fifo : List Fifo
  fifoWait : List (Nat × Bool × Nat)
  handles : List HandleEntry
  slots : Cells 8
  array : ArrayRec
  jobs : List Job
  rules : Cells 8
  log : List LogRec
  tag : Option TagRef
  pendingTags : List TagRef
  commit : Option Commit
  counters : Cells 64
  quads : List Quad
  xqueues : List (List Nat)
  xpipe : List (List Nat)
  stopReq : Option StopReq
  deriving DecidableEq, Repr

/-- An occupied core: logical number and block (R14, R24). -/
structure Core where
  num : Nat
  block : Block
  deriving DecidableEq, Repr

/-- A gallery's cataloguer (R335, R340): tags not free, tags held after a remote timeout, tagless blocks in
the order in which they lost theirs, open bins, the destinations each tag has been shipped to, and the core whose log is
visited next. -/
structure Cataloguer where
  gallery : Nat
  turn : Nat
  held : List (BitVec 12)
  timedOut : List (BitVec 12 × Word64)
  waiting : List Nat
  bins : List (Nat × List DefRec)
  sent : List CloseMsg
  deriving DecidableEq, Repr

/-- A bin at or on its way to a channel's conservator (R337). -/
structure ChannelBin where
  channel : Nat
  bin : ShippedBin
  deriving DecidableEq, Repr

/-- A grid in flight (R329, R331): its record, the step in which it was enqueued (R104), the copy of bytes 0 to 59 that the
dispensers keep (R323), context, facts, tags its completed blocks held, and its implicit commit once every block has completed. -/
structure Grid where
  record : Addr
  enqueued : Nat
  raw : List Byte
  ctx : Nat
  sys : Bool
  succ : Addr
  placedAt : Word64
  tags : List TagRef
  commit : Option Commit
  deriving DecidableEq, Repr

/-- A group record installed in the group table (R356, R357). -/
structure GroupEntry where
  grp : BitVec 8
  ctx : Nat
  members : Word64
  dests : Word64
  exp : Nat
  op : BitVec 5
  hold : Bool
  epoch : BitVec 16
  tmo : Word32
  wch : Nat
  win : Addr
  stat : Addr
  key : Word64
  retired : List Nat
  deriving DecidableEq, Repr

/-- A reduction slot (R359): its key, its copy of the record, and what it has gathered. -/
structure Slot where
  grp : BitVec 8
  epoch : BitVec 16
  chunk : Nat
  entry : GroupEntry
  count : Nat
  mask : Word64
  nonFinite : Bool
  nan : Bool
  covered : List Nat
  words : List Word32
  pulls : List PullRequest
  fins : Word64
  delivered : Bool
  since : Word64
  deriving DecidableEq, Repr

/-- What a fabric request of a warp was (R367, R373); reads carry their place in program order, and a pull its chunk, the
aperture address ÷ 2,048; a store whether it is seq_cst (R247). -/
inductive ReqKind where
  | push
  | store (sc : Bool)
  | load (seq : Nat)
  | netld (seq : Nat)
  | pull (seq chunk : Nat)
  | atomic (seq : Nat)
  deriving DecidableEq, Repr

/-- An outstanding fabric request (R374); `saved` names the block, by context, record and index, while its block is
saved and no core holds its warp (R377), `begun` says that this device as its home has performed a part of it (R371), and `src` is
that of its push. -/
structure FabricReq where
  ident : Nat
  core : Nat
  warp : Nat
  saved : Option (Nat × Addr × Word32)
  home : BitVec 6
  kind : ReqKind
  drain : Option Nat
  since : Word64
  begun : Bool
  src : Option (Nat × Word64)
  deriving DecidableEq, Repr

/-- A histogram monitor (R427): source, enable, edges, state words 0 to 18, and the clock of its last periodic sample or of its
configuration. -/
structure Monitor where
  src : BitVec 4
  en : Bool
  edges : List Word32
  words : List Word64
  last : Word64
  deriving DecidableEq, Repr

/-- What has met a page that is not resident and tries again as its own events come (R343): the dispensers at a queue of a context
(R328), the save of the blocks led from a core (R441), a grid's completion (R331), or the delivery of a slot's results to a window
(R362). -/
inductive Party where
  | queue (ctx q : Nat)
  | save (core : Nat)
  | grid (ctx : Nat) (record : Addr)
  | delivery (window : Addr)
  deriving DecidableEq, Repr

/-- For whom the device accesses a context's memory, as a fault record names it (R342): a block, a warp, a core; 0 where there is
none. -/
structure Whose where
  block : Word32
  warp : Nat
  core : Nat
  deriving DecidableEq, Repr

/-- A fault record's content (R342). -/
structure FaultRec where
  va : Addr
  cls : BitVec 4
  detail : BitVec 16
  src : Nat
  kind : BitVec 2
  block : Word32
  warp : Nat
  core : Nat
  deriving DecidableEq, Repr

/-- A device access of context memory that waits for a page (R343, R505): a write, one at an offset of a warp's save area, whose
stack object is still to be looked up, a fault record, a host's QAPP (R452), a join decrement, an enqueue, the FLT bit
of a record, the bit of a save frame, the decrement of a grid's block count (R331), the withdrawal of an enrolment (R422), the
end of a termination that its withdrawals hold back (R436), the
checks and writes of a block's placement (R432), or the wait of another party. -/
inductive DevEvent where
  | write (ctx : Nat) (sys : Bool) (va : Addr) (bytes : List Byte) (who : Whose)
  | area (ctx : Nat) (sys : Bool) (obj slot off : Nat) (bytes : List Byte) (who : Whose)
  | post (ctx : Nat) (sys : Bool) (r : FaultRec)
  | ended (core warp : Nat) (f : FaultInfo) (mask : LaneMask)
  | qapp (ctx : Nat) (rcd : Addr)
  | joinDec (ctx : Nat) (sys : Bool) (va : Addr) (n : Nat)
  | enqueue (ctx : Nat) (sys : Bool) (va : Addr)
  | flt (ctx : Nat) (sys : Bool) (va : Addr) (who : Whose)
  | clearFrame (ctx : Nat) (sys : Bool) (frame : Addr)
  | blockDone (ctx : Nat) (sys : Bool) (va : Addr) (who : Whose)
  | withdraw (ctx : Nat) (sys : Bool) (e : Enrol) (who : Whose)
  | place (core : Nat)
  | party (ctx : Nat) (p : Party)
  deriving DecidableEq, Repr

/-- Where a translation is cached (R385): the TLB of a core, that of a gallery, or the walk caches of a die. -/
inductive TlbAt where
  | core (c : Nat)
  | gallery (g : Nat)
  | die (d : Nat)
  deriving DecidableEq, Repr

/-- A cached page-table entry (R385). -/
structure CachedPte where
  held : TlbAt
  ctx : Nat
  level : Nat
  vpn : Nat
  pte : Word64
  deriving DecidableEq, Repr

/-- A cached object entry (R381): four 64-bit words. -/
structure CachedObj where
  core : Nat
  ctx : Nat
  n : Nat
  words : List Word64
  deriving DecidableEq, Repr

/-- A cached context descriptor (R378): PTR, OBJT, QCB, TRAP and whether it is in force. -/
structure CtxDesc where
  ok : Bool
  ptr : Nat
  objt : Addr
  qcb : Addr
  trap : Addr
  deriving DecidableEq, Repr

/-- The host's management registers (R450); `semB` holds when port B last acquired a semaphore that was free (R451),
`preSet` the contexts whose pre-emption is under way (R454). -/
structure HostRegs where
  boot : BitVec 2
  err : BitVec 2
  podid : BitVec 7
  bootaddr : BitVec 48
  bootlen : Word32
  bootBusy : Bool
  sem : List (BitVec 2)
  semB : List (Nat × Word64)
  ctxbase : BitVec 48
  ctxen : Word64
  qstat : BitVec 9
  pre : BitVec 6
  preBusy : Bool
  preSet : List Nat
  preDone : Bool
  preFailed : Bool
  svcFailed : Bool
  fwDigest : BitVec 512
  wlim : List Word64
  tlim : Word64
  monsel : BitVec 6
  ecc : List (Word32 × Word32)
  deriving DecidableEq, Repr

/-- Service state (R460, R459): galleries asked to leave and out of service, spares in use, rows under
repair (stack, channel, row), spans retraining, wings whose arrays are withheld, spares' cores. -/
structure Service where
  quiescing : List Nat
  out : List Nat
  substituted : List (Nat × Nat)
  rows : List (Nat × Nat × Nat)
  spans : List Nat
  withheld : List Nat
  deriving DecidableEq, Repr

/-- A measurement of a context (R457): its value and the table digests recorded. -/
structure Measure where
  ctx : Nat
  value : BitVec 512
  seen : List (BitVec 512)
  deriving DecidableEq, Repr

/-- The commit of a saved block (R264, R446): which block of which grid with its launch facts, and the commit; `logged` that records
of its tags lie in the frame's log area, so that it goes on after the restore (R444, R445); `done` once it has
completed, so that its status waits for the restore. -/
structure SavedCommit where
  launch : Launch
  ctx : Nat
  record : Addr
  block : Word32
  commit : Commit
  logged : Bool
  done : Bool
  deriving DecidableEq, Repr

/-- A block that is saved and not yet restored, with the stack object whose bytes it holds (R208), the faults of jobs that its
live warps have still to raise, by warp (R286; log entry 77), and whether its frame has a job list (R442; log entry 79). -/
structure SavedBlock where
  ctx : Nat
  record : Addr
  block : Word32
  stko : Nat
  jobFaults : List (Nat × FaultInfo)
  jobs : Bool
  deriving DecidableEq, Repr

/-- The bytes that a 128-byte sector of memory held until a store changed them, and the step of that store: a form in which the
sector may still be fetched as code (R104). -/
structure OldCode where
  sector : Nat
  ended : Nat
  bytes : List Byte
  deriving DecidableEq, Repr

/-- A release store of block or gang scope that was performed before the earlier events of its warp: what the agents of its scope
do at its place waits for those events (R244, R246; log entry 8). -/
structure EarlyRelease where
  core : Nat
  warp : Nat
  seq : Nat
  gang : Bool
  loc : Loc
  size : Nat
  deriving DecidableEq, Repr

/-- A 128-byte sector that a home slice holds for accesses other than of deferred pages (R17, R224): whether it is dirty, whether
its line is replaced first, since a streaming access has brought it in (R226), and
its bytes where a conservator has since changed the vault cache's (R234); none where the two agree. -/
structure HomeSector where
  sector : Nat
  dirty : Bool
  stream : Bool
  old : Option (List Byte)
  deriving DecidableEq, Repr

/-- Which transition moves next: the current warp's issue, or an event (log entry 1). -/
inductive Choice where
  | issue
  | event (e : Instr)
  deriving DecidableEq, Repr

/-- The state of the device; `pipes` pairs a core with the quadrant its transform pipe accepted last (R192). `objWritten` says in which
step OBJSET last wrote the entry at a place, and `objDropped` when a TLBINV last named the object entries of a context from a number to
another: what a place held before is not read any more (R381, R393). `armedCoops` says where the cooperative records lie that were
accepted with a join counter (R43, R460). -/
structure State where
  mem : Memory
  clock : Word64
  tick : Nat
  next : Choice
  curCore : Nat
  curWarp : Nat
  cores : List Core
  grids : List Grid
  savedCommits : List SavedCommit
  savedBlocks : List SavedBlock
  queueTimes : List (Nat × Addr × Word64 × Nat)
  armedCoops : List Nat
  cats : List Cataloguer
  travelling : List ChannelBin
  parked : List ChannelBin
  closes : List CloseMsg
  acks : List CloseMsg
  groups : List GroupEntry
  slots : List Slot
  contributions : List Contribution
  heldContribs : List (Contribution × Word64)
  pullReqs : List PullRequest
  netStores : List NetStore
  netLoads : List NetLoad
  responses : List Response
  deliveries : List Delivery
  requests : List FabricReq
  nextIdent : Nat
  devEvents : List (DevEvent × Word64)
  tlb : List CachedPte
  objCache : List CachedObj
  objWritten : List (Nat × Nat)
  objDropped : List (Nat × Nat × Nat × Nat)
  descCache : List (Nat × CtxDesc)
  oldCode : List OldCode
  home : List HomeSector
  early : List EarlyRelease
  pipes : List (Nat × Nat)
  host : HostRegs
  service : Service
  vchMode : List Word64
  vchFp : List Bool
  vchChange : List (Nat × Word64)
  monitors : List (Nat × Monitor)
  measures : List Measure
  bad : List Place
  deriving DecidableEq, Repr

/-- Why the model stops. No reachable state raises one: every fault of the spec is a next state, in which
the warp is rolled back or terminated. -/
inductive Fault where
  /-- Raised when an instruction is executed while the state names no live warp of an occupied core as the
  one that issues, or one with no instruction left in its clause. Safe: the machine never issues for such a warp. -/
  | noCurrentWarp
  deriving DecidableEq, Repr

/-- Why the model has no meaning for an instruction. -/
inductive Refusal where
  /-- Raised by an arm of `exec` whose instruction is not modelled yet. Safe. -/
  | notModelled (mnemonic : String)
  deriving DecidableEq, Repr

/-- The host registers after reset (R450; log entry 6 for the values the spec does not state). -/
def HostRegs.reset : HostRegs :=
  { boot := 0, err := 0, podid := 0, bootaddr := 0, bootlen := 0, bootBusy := false, sem := List.replicate 8 0, semB := [],
    ctxbase := 0, ctxen := 0, qstat := 0, pre := 0, preBusy := false, preSet := [], preDone := false, preFailed := false,
    svcFailed := false, fwDigest := 0, wlim := List.replicate 8 0, tlim := 0, monsel := 0,
    ecc := List.replicate 8 (0, 0) }

/-- The device right after reset: power-up clears all state and the boot ROM waits (R455, R456). -/
def State.reset : State :=
  { mem := [], clock := 0, tick := 0, next := .issue, curCore := 0, curWarp := 0, cores := [], grids := [], savedCommits := [], savedBlocks := [],
    queueTimes := [], armedCoops := [], cats := [], travelling := [], parked := [], closes := [], acks := [], groups := [],
    slots := [], contributions := [], heldContribs := [], pullReqs := [], netStores := [],
    netLoads := [], responses := [], deliveries := [], requests := [], nextIdent := 0, devEvents := [],
    tlb := [], objCache := [], objWritten := [], objDropped := [], descCache := [], oldCode := [], home := [], early := [], pipes := [], host := .reset,
    service := { quiescing := [], out := [], substituted := [], rows := [], spans := [], withheld := [] },
    vchMode := List.replicate 8 0, vchFp := List.replicate 8 true, vchChange := [], monitors := [],
    measures := [], bad := [] }

end Sys2Proof.Machine
end

