-- ==== Sys2Proof/Machine/View.lean ====
section
/-!
DEFINITION. A warp in view: the device, the block of one core, one of its warps and the clause it is in;
reading and writing registers; faults.
-/
namespace Sys2Proof.Machine

/-! ### Time (R5) -/

/-- Cycles of a microsecond at 2.25 GHz (R5). -/
def cyclesPerUs : Nat := 2250

/-- A waiting party retries every 100 µs (R343). -/
def retryCycles : Nat := 100 * cyclesPerUs

/-- At least `n` cycles have passed since the clock stood at `since`. -/
def State.passed (s : State) (since : Word64) (n : Nat) : Bool := n ≤ (s.clock - since).toNat

/-- A device access that has met a page that is not resident waits (R343, R505). -/
def State.holdSince (s : State) (e : DevEvent) (since : Word64) : State := { s with devEvents := s.devEvents ++ [(e, since)] }

/-- The same since now. -/
def State.holdEvent (s : State) (e : DevEvent) : State := s.holdSince e s.clock

/-- A fault of the instruction that issues (R102, R430). -/
def flt (cls : BitVec 4) (detail : BitVec 16) : FaultInfo :=
  { cls := cls, detail := detail, addr := none, lane := none, va := none, kind := 0, report := 0 }

/-- The same fault with the virtual address of the data access (R433). -/
def FaultInfo.at (f : FaultInfo) (va : Addr) : FaultInfo := { f with va := some va }

/-- The same fault with the lowest lane reported (R266). -/
def FaultInfo.onLane (f : FaultInfo) (l : Nat) : FaultInfo := { f with lane := some l }

/-- A class 0x08 fault replays unless its detail is 0x04 (R431). -/
def FaultInfo.replayable (f : FaultInfo) : Bool := f.cls == 0x08 && f.detail != 0x04

/-- No fault of the spec (its class is 0): an access that must wait, so that the instruction issues again later (R128, R241). -/
def busy : FaultInfo := flt 0x00 0x00

/-- Succeeds when the condition holds. -/
def require (b : Bool) (f : FaultInfo) : Except FaultInfo Unit := if b then .ok () else .error f

/-! ### Registers (R89, R120) -/

/-- Reads s(n); s0 reads 0. -/
def Warp.rs (w : Warp) (n : Nat) : Word64 := if n = 0 then 0 else Cells.get w.s n

/-- Writes s(n); a write to s0 is discarded. -/
def Warp.ws (w : Warp) (n : Nat) (x : Word64) : Warp := if n = 0 then w else { w with s := Cells.set w.s n x }

/-- Reads p(n); p0 reads all ones. -/
def Warp.rp (w : Warp) (n : Nat) : Word32 := if n = 0 then 0xFFFFFFFF#32 else Cells.get w.p n

/-- Writes the bits of p(n) that `m` names; a write to p0 is discarded. -/
def Warp.wp (w : Warp) (n : Nat) (m x : Word32) : Warp :=
  if n = 0 then w else { w with p := Cells.set w.p n ((Cells.get w.p n &&& ~~~m) ||| (x &&& m)) }

/-- Reads lane `l` of v(r). -/
def Warp.rv (w : Warp) (r l : Nat) : Word32 := Cells.get w.v (32 * r + l)

/-- Writes lane `l` of v(r). -/
def Warp.wv (w : Warp) (r l : Nat) (x : Word32) : Warp := { w with v := Cells.set w.v (32 * r + l) x }

/-- Reads the 64-bit pair v(r), v(r+1) of lane `l`, low word first (R54). -/
def Warp.rv64 (w : Warp) (r l : Nat) : Word64 := w.rv (r + 1) l ++ w.rv r l

/-- Writes the 64-bit pair v(r), v(r+1) of lane `l`. -/
def Warp.wv64 (w : Warp) (r l : Nat) (x : Word64) : Warp :=
  (w.wv r l (x.extractLsb' 0 32)).wv (r + 1) l (x.extractLsb' 32 32)

/-- The lanes of a mask, in ascending order. -/
def lanes (m : LaneMask) : List Nat := (List.range 32).filter (fun l => m.getLsbD l)

/-- The mask of a set of lanes. -/
def maskOf (f : Nat → Bool) : LaneMask := BitVec.ofFnLE (fun i : Fin 32 => f i.val)

/-- Writes v(r) in the lanes of `ls`, each from the value `f` gives it. -/
def Warp.wvEach (w : Warp) (r : Nat) (f : Nat → Word32) : List Nat → Warp
  | [] => w
  | l :: ls => Warp.wvEach (w.wv r l (f l)) r f ls

/-- Writes the pair v(r), v(r+1) in the lanes of `ls`. -/
def Warp.wv64Each (w : Warp) (r : Nat) (f : Nat → Word64) : List Nat → Warp
  | [] => w
  | l :: ls => Warp.wv64Each (w.wv64 r l (f l)) r f ls

/-! ### Splits of a warp (R27) -/

/-- The lanes of a warp that have not exited: the union of its splits. -/
def Warp.liveLanes (w : Warp) : LaneMask := w.ring.foldl (fun m sp => m ||| sp.mask) 0

/-- The running split. -/
def Warp.running (w : Warp) : Option Split := w.ring.find? (fun sp => sp.st == .running)

/-- The mask of the running split (sr.mask). -/
def Warp.runMask (w : Warp) : LaneMask := (w.running.map Split.mask).getD 0

/-- The position of the running split in the ring (sr.split). -/
def Warp.runPos (w : Warp) : Nat := w.ring.findIdx (fun sp => sp.st == .running)

/-! ### Blocks and warps of the device -/

/-- The block on a core. -/
def State.block (s : State) (c : Nat) : Option Block := (s.cores.find? (fun x => x.num == c)).map Core.block

/-- The gallery of a core (R14). -/
def galleryOf (core : Nat) : Nat := core / 8

/-- The number of no core: what a device access made for no resident block has for one. -/
def noCore : Nat := 320

/-- Replaces the block on a core. -/
def State.setBlock (s : State) (c : Nat) (b : Block) : State :=
  { s with cores := s.cores.map (fun x => if x.num == c then { x with block := b } else x) }

/-- The warp of that number. -/
def Block.warp (b : Block) (n : Nat) : Option Warp := b.warps.find? (fun w => w.num == n)

/-- Replaces the warp that carries the same number. -/
def Block.setWarp (b : Block) (w : Warp) : Block :=
  { b with warps := b.warps.map (fun x => if x.num == w.num then w else x) }

/-- A warp in view. -/
structure View where
  dev : State
  core : Nat
  blk : Block
  w : Warp
  cl : Clause
  deriving DecidableEq, Repr

/-- The state with the warp in view put back. -/
def View.close (t : View) : State := t.dev.setBlock t.core (t.blk.setWarp t.w)

/-- A clause in which nothing is left to issue, for views between clauses. -/
def Clause.empty : Clause := { header := 0, word := 0, idx := 0, todo := [], eff := 0, start := 0 }

/-- Brings a warp into view, inside a clause or not. -/
def State.viewOf (s : State) (c n : Nat) : Option View :=
  match s.block c with
  | none => none
  | some b =>
    match b.warp n with
    | none => none
    | some w => some { dev := s, core := c, blk := b, w := w, cl := w.clause.getD .empty }

/-- A view after a change of the whole device; the clause in view stays. -/
def View.through (t : View) (f : State → State) : View :=
  match (f t.close).viewOf t.core t.w.num with
  | some t2 => { t2 with cl := t.cl }
  | none => t

/-- The warp that issues. -/
def State.view (s : State) : Option View := s.viewOf s.curCore s.curWarp

/-- The effective mask of the instruction that issues (R85). -/
def View.eff (t : View) : LaneMask := t.cl.eff

/-- The lanes of the effective mask. -/
def View.effLanes (t : View) : List Nat := lanes t.cl.eff

/-- The lowest lane of the effective mask. -/
def View.lowLane (t : View) : Nat := (lanes t.cl.eff).headD 0

/-- The address of the instruction's first word (R102). -/
def View.pc (t : View) : Addr := t.cl.header + BitVec.ofNat 64 (4 * t.cl.idx)

/-- The words of the instruction that issues. -/
def View.words (t : View) : List Word32 := t.cl.todo.headD []

/-- The address of the header after the clause (R80), for the last instruction of a clause. -/
def View.nextHeader (t : View) : Addr := t.cl.header + BitVec.ofNat 64 (4 * (t.cl.idx + t.words.length))

/-- Replaces the warp in view. -/
def View.setW (t : View) (w : Warp) : View := { t with w := w }

/-- Replaces the block in view. -/
def View.setB (t : View) (b : Block) : View := { t with blk := b }

/-- How an instruction's own operation ends: done, a fault with no effect, a fault after the effects that come
before its check (R158), or not yet possible, in which case the instruction issues again later; `hold` keeps what it has done
so far, such as its place in a queue (R272); `skip` passes the instruction over (R85, R402). -/
inductive Res where
  | ok (t : View)
  | fault (f : FaultInfo)
  | faultIn (t : View) (f : FaultInfo)
  | hold (t : View)
  | skip (t : View)
  | wait
  deriving Repr

end Sys2Proof.Machine
end

