-- ==== Sys2Proof/Machine/Flags.lean ====
section
/-!
DEFINITION. Sticky flags (spec 03 R72 to R74): the bits of cr.fpflags and cr.satflag, and how an
instruction adds its own.
-/
namespace Sys2Proof.Machine

/-- Floating flags as the bits of cr.fpflags (R72). -/
abbrev FpFlags := Word32

/-- IV, bit 0: invalid. -/
def flagIV : FpFlags := 0x01
/-- DZ, bit 1: division by zero. -/
def flagDZ : FpFlags := 0x02
/-- OF, bit 2: overflow. -/
def flagOF : FpFlags := 0x04
/-- UF, bit 3: underflow. -/
def flagUF : FpFlags := 0x08
/-- NX, bit 4: inexact. -/
def flagNX : FpFlags := 0x10
/-- CL, bit 5: clamped. -/
def flagCL : FpFlags := 0x20
/-- SAT, bit 0 of cr.satflag. -/
def flagSAT : Word32 := 0x01

/-- A flag that is set when the condition holds. -/
def flagIf (b : Bool) (f : FpFlags) : FpFlags := if b then f else 0

/-- A result with the floating flags it sets and whether it saturated. -/
structure Flagged (α : Type) where
  val : α
  fp : FpFlags
  sat : Bool
  deriving DecidableEq, Repr

/-- A result that sets no flag. -/
def Flagged.pure {α : Type} (x : α) : Flagged α := { val := x, fp := 0, sat := false }

/-- The flags of a list of results together (R73). -/
def flagsOf {α : Type} (xs : List (Flagged α)) : FpFlags := xs.foldl (fun m x => m ||| x.fp) 0

/-- Whether one of a list of results saturated. -/
def satOf {α : Type} (xs : List (Flagged α)) : Bool := xs.any Flagged.sat

/-- The warp's sticky flags with those of an instruction added (R72). -/
def Warp.addFlags (w : Warp) (fp : FpFlags) (sat : Bool) : Warp :=
  { w with fpflags := w.fpflags ||| fp, satflag := w.satflag ||| flagIf sat flagSAT }

end Sys2Proof.Machine
end

