-- ==== Sys2Proof/Machine/Float.lean ====
section
/-!
DEFINITION. Number formats, exact values and rounding (spec 03 R50 to R58, R70, R71, R77). A finite
floating value is held exactly, as a sign, a natural number and a power of two.
-/
namespace Sys2Proof.Machine

/-! ### Formats (R50, R51) -/

/-- A floating format: exponent and fraction bits, and whether it has infinities. -/
structure FloatFmt where
  eb : Nat
  fb : Nat
  infs : Bool
  deriving DecidableEq, Repr

def fmtF32 : FloatFmt := { eb := 8, fb := 23, infs := true }
def fmtF16 : FloatFmt := { eb := 5, fb := 10, infs := true }
def fmtBF16 : FloatFmt := { eb := 8, fb := 7, infs := true }
def fmtE5M2 : FloatFmt := { eb := 5, fb := 2, infs := true }
def fmtE4M3 : FloatFmt := { eb := 4, fb := 3, infs := false }

/-- The exponent bias. -/
def FloatFmt.bias (F : FloatFmt) : Nat := 2 ^ (F.eb - 1) - 1

/-- Width in bits. -/
def FloatFmt.width (F : FloatFmt) : Nat := 1 + F.eb + F.fb

/-- The exponent of the smallest subnormal. -/
def FloatFmt.qmin (F : FloatFmt) : Int := 1 - (F.bias : Int) - F.fb

/-- The encoding of the largest finite value. -/
def FloatFmt.maxBits (F : FloatFmt) : Nat :=
  if F.infs then (2 ^ F.eb - 1) * 2 ^ F.fb - 1 else 2 ^ (F.eb + F.fb) - 2

/-- The encoding of positive infinity. -/
def FloatFmt.infBits (F : FloatFmt) : Nat := (2 ^ F.eb - 1) * 2 ^ F.fb

/-- The canonical NaN (R51, R53). -/
def FloatFmt.nan (F : FloatFmt) : Nat :=
  if F.infs then F.infBits + 2 ^ (F.fb - 1) else 2 ^ (F.eb + F.fb) - 1

/-- The sign bit's weight. -/
def FloatFmt.signBit (F : FloatFmt) : Nat := 2 ^ (F.eb + F.fb)

/-- The integer formats: width and signedness. -/
structure IntFmt where
  w : Nat
  signed : Bool
  deriving DecidableEq, Repr

/-- A number format by its code (R50); q4 and reserved codes are neither. -/
inductive NumFmt where
  | flt (f : FloatFmt)
  | int (f : IntFmt)
  | q4
  | none
  deriving DecidableEq, Repr

/-- The format of a code (R50). -/
def fmtOf (c : BitVec 4) : NumFmt :=
  match c.toNat with
  | 0 => .flt fmtF32 | 1 => .flt fmtF16 | 2 => .flt fmtBF16 | 3 => .flt fmtE5M2 | 4 => .flt fmtE4M3
  | 5 => .q4
  | 6 => .int ⟨8, true⟩ | 7 => .int ⟨8, false⟩ | 8 => .int ⟨16, true⟩ | 9 => .int ⟨16, false⟩
  | 10 => .int ⟨32, true⟩ | 11 => .int ⟨32, false⟩ | 12 => .int ⟨64, true⟩ | 13 => .int ⟨64, false⟩
  | _ => .none

/-! ### Exact values -/

/-- A value: a NaN, an infinity, or ±m × 2^e; zeros are signed (R52). -/
inductive Num where
  | nan (signalling : Bool)
  | inf (neg : Bool)
  | fin (neg : Bool) (m : Nat) (e : Int)
  deriving DecidableEq, Repr

/-- The value an encoding stands for (R51). -/
def FloatFmt.read (F : FloatFmt) (x : Nat) : Num :=
  let neg := x.testBit (F.eb + F.fb)
  let ex := x / 2 ^ F.fb % 2 ^ F.eb
  let fr := x % 2 ^ F.fb
  if ex = 0 then .fin neg fr F.qmin
  else if F.infs && ex == 2 ^ F.eb - 1 then
    if fr = 0 then .inf neg else .nan (!fr.testBit (F.fb - 1))
  else if !F.infs && ex == 2 ^ F.eb - 1 && fr == 2 ^ F.fb - 1 then .nan false
  else .fin neg (2 ^ F.fb + fr) (F.qmin + (ex - 1 : Nat))

/-- The value of an integer. -/
def Num.ofInt (x : Int) : Num := .fin (x < 0) x.natAbs 0

/-- Whether a value is a signalling NaN. -/
def Num.snan : Num → Bool
  | .nan s => s
  | _ => false

def Num.isNan : Num → Bool
  | .nan _ => true
  | _ => false

/-- Whether a value is a zero. -/
def Num.isZero : Num → Bool
  | .fin _ m _ => m == 0
  | _ => false

/-- The opposite value. -/
def Num.neg : Num → Num
  | .nan s => .nan s
  | .inf n => .inf (!n)
  | .fin n m e => .fin (!n) m e

/-! ### Rounding (R57, R58) -/

/-- A rounding: to nearest even, toward zero, or stochastic with a seed and an element index. -/
inductive RMode where
  | ne
  | tz
  | sr (seed : Word32) (idx : Nat)
  deriving DecidableEq, Repr

/-- Draw (R58). -/
def draw (seed : Word32) (e : Nat) : Word32 :=
  let t0 := seed ^^^ BitVec.ofNat 32 (e * 0x9E3779B9)
  let t1 := if t0 = 0 then 0x6A09E667#32 else t0
  let t2 := t1 ^^^ (t1 <<< 13)
  let t3 := t2 ^^^ (t2 >>> 17)
  t3 ^^^ (t3 <<< 5)

/-- Rounds ±m × 2^(−d) to an integer magnitude; the flag says that it is inexact. -/
def roundMag (mode : RMode) (neg : Bool) (m d : Nat) : Nat × Bool :=
  let n := m >>> d
  let rem := m % 2 ^ d
  if rem = 0 then (n, false)
  else
    match mode with
    | .tz => (n, true)
    | .ne => (if 2 ^ d < 2 * rem || (2 * rem == 2 ^ d && n % 2 == 1) then n + 1 else n, true)
    | .sr seed e =>
      let part := if neg then 2 ^ d - rem else rem
      let up := decide ((draw seed e).toNat * 2 ^ d < part * 2 ^ 32)
      (if up != neg then n + 1 else n, true)

/-- An encoding with what the rounding did: inexact, beyond the range, and the exact value below the smallest
normal. -/
structure Rounded where
  bits : Nat
  nx : Bool
  ovf : Bool
  tiny : Bool
  deriving DecidableEq, Repr

/-- Rounds ±m × 2^e to a floating format (R57). -/
def FloatFmt.round (F : FloatFmt) (mode : RMode) (neg : Bool) (m : Nat) (e : Int) : Rounded :=
  let sg := if neg then F.signBit else 0
  if m = 0 then { bits := sg, nx := false, ovf := false, tiny := false }
  else
    let top : Int := m.log2 + e
    let q := max (top - F.fb) F.qmin
    let r := if q ≤ e then (m <<< (e - q).toNat, false) else roundMag mode neg m (q - e).toNat
    let bits := (q - F.qmin).toNat * 2 ^ F.fb + r.1
    let ovf : Bool := decide (F.maxBits < bits)
    { bits := sg + (if ovf then (if F.infs && mode == .ne then F.infBits else F.maxBits) else bits)
      nx := r.2 || ovf, ovf := ovf, tiny := decide (top < F.qmin + F.fb) }

/-- The least and greatest value of an integer format. -/
def IntFmt.lo (F : IntFmt) : Int := if F.signed then -(2 ^ (F.w - 1)) else 0
def IntFmt.hi (F : IntFmt) : Int := if F.signed then 2 ^ (F.w - 1) - 1 else 2 ^ F.w - 1

/-- The encoding of an integer after saturation to the format. -/
def IntFmt.sat (F : IntFmt) (x : Int) : Nat := (min (max x F.lo) F.hi % 2 ^ F.w).toNat

/-- Rounds ±m × 2^e onto the integers. -/
def roundInt (mode : RMode) (neg : Bool) (m : Nat) (e : Int) : Int × Bool :=
  let r := if 0 ≤ e then (m <<< e.toNat, false) else roundMag mode neg m (-e).toNat
  (if neg then -(r.1 : Int) else r.1, r.2)

/-- Delivers an exact value in a floating format with the flags of R72: NaNs become canonical, and a signalling
one sets IV; an infinity stays one, or becomes the largest finite value with NX where there is none (R178). -/
def FloatFmt.deliver (F : FloatFmt) (x : Num) : Flagged Nat :=
  match x with
  | .nan s => { val := F.nan, fp := flagIf s flagIV, sat := false }
  | .inf n =>
    let sg := if n then F.signBit else 0
    if F.infs then .pure (sg + F.infBits) else { val := sg + F.maxBits, fp := flagNX, sat := false }
  | .fin n m e =>
    let r := F.round .ne n m e
    { val := r.bits, fp := flagIf r.ovf flagOF ||| flagIf r.nx flagNX ||| flagIf (r.nx && r.tiny) flagUF, sat := false }

/-- A value known to lie strictly between m × 2^e and (m + 1) × 2^e when `sticky`; no rounding boundary of the
formats it is rounded to lies between them. -/
def stickyNum (neg : Bool) (m : Nat) (e : Int) (sticky : Bool) : Num :=
  .fin neg (2 * m + (if sticky then 1 else 0)) (e - 1)

/-! ### Arithmetic on exact values -/

/-- m × 2^e as an integer multiple of 2^q, for q ≤ e. -/
def scaled (neg : Bool) (m : Nat) (e q : Int) : Int :=
  let x : Int := (m <<< (e - q).toNat : Nat)
  if neg then -x else x

/-- The exact sum of two finite values; a zero sum is +0 unless both are −0 (R52). -/
def addFin (n1 : Bool) (m1 : Nat) (e1 : Int) (n2 : Bool) (m2 : Nat) (e2 : Int) : Num :=
  let q := min e1 e2
  let x := scaled n1 m1 e1 q + scaled n2 m2 e2 q
  if x = 0 then .fin (n1 && m1 == 0 && n2 && m2 == 0) 0 0 else .fin (x < 0) x.natAbs q

/-- An exact result and whether the operation was invalid (R72). -/
abbrev Exact := Num × Bool

/-- The exact sum (R52, R53). -/
def Num.add (a b : Num) : Exact :=
  match a, b with
  | .nan s, y => (.nan (s || y.snan), false)
  | x, .nan s => (.nan (s || x.snan), false)
  | .inf n, .inf k => if n == k then (.inf n, false) else (.nan true, true)
  | .inf n, .fin .. => (.inf n, false)
  | .fin .., .inf n => (.inf n, false)
  | .fin n1 m1 e1, .fin n2 m2 e2 => (addFin n1 m1 e1 n2 m2 e2, false)

/-- The exact product. -/
def Num.mul (a b : Num) : Exact :=
  match a, b with
  | .nan s, y => (.nan (s || y.snan), false)
  | x, .nan s => (.nan (s || x.snan), false)
  | .inf n, .inf k => (.inf (n != k), false)
  | .inf n, .fin k m _ => if m = 0 then (.nan true, true) else (.inf (n != k), false)
  | .fin k m _, .inf n => if m = 0 then (.nan true, true) else (.inf (n != k), false)
  | .fin n1 m1 e1, .fin n2 m2 e2 => (.fin (n1 != n2) (m1 * m2) (e1 + e2), false)

/-- a × b + c, exact (R70, R174): a product of 0 × infinity is invalid whatever the addend. -/
def Num.fma (a b c : Num) : Exact :=
  let p := a.mul b
  if p.2 then p else p.1.add c

/-- Rounds an exact result to a format, with IV for an invalid operation (R53, R72). -/
def FloatFmt.result (F : FloatFmt) (r : Exact) : Flagged Nat :=
  if r.2 then { val := F.nan, fp := flagIV, sat := false } else F.deliver r.1

/-- One addition rounded once (R70). -/
def FloatFmt.addBits (F : FloatFmt) (a b : Nat) : Flagged Nat := F.result ((F.read a).add (F.read b))
/-- One subtraction rounded once. -/
def FloatFmt.subBits (F : FloatFmt) (a b : Nat) : Flagged Nat := F.result ((F.read a).add (F.read b).neg)
/-- One multiplication rounded once. -/
def FloatFmt.mulBits (F : FloatFmt) (a b : Nat) : Flagged Nat := F.result ((F.read a).mul (F.read b))
/-- a × b + c rounded once. -/
def FloatFmt.fmaBits (F : FloatFmt) (a b c : Nat) : Flagged Nat := F.result ((F.read a).fma (F.read b) (F.read c))

/-! ### Comparison (R71) -/

/-- The order of encodings that are not NaNs, with −0 below +0. -/
def FloatFmt.key (F : FloatFmt) (x : Nat) : Int :=
  if x.testBit (F.eb + F.fb) then -((x % F.signBit : Nat) : Int) - 1 else (x : Int)

/-- The order by value, in which −0 equals +0. -/
def FloatFmt.valueKey (F : FloatFmt) (x : Nat) : Int :=
  if x.testBit (F.eb + F.fb) then -((x % F.signBit : Nat) : Int) else (x : Int)

/-- FMIN or FMAX (R71). -/
def FloatFmt.minMax (F : FloatFmt) (mx : Bool) (a b : Nat) : Flagged Nat :=
  let x := F.read a
  let y := F.read b
  let v :=
    if x.isNan && y.isNan then F.nan
    else if x.isNan then b
    else if y.isNan then a
    else if mx then (if F.key a < F.key b then b else a)
    else (if F.key b < F.key a then b else a)
  { val := v, fp := flagIf (x.snan || y.snan) flagIV, sat := false }

/-- The conditions of FCMP (R175). -/
def FloatFmt.cmp (F : FloatFmt) (c : Nat) (a b : Nat) : Flagged Bool :=
  let x := F.read a
  let y := F.read b
  let u := x.isNan || y.isNan
  let v :=
    match c with
    | 0 => !u && F.valueKey a == F.valueKey b
    | 1 => u || F.valueKey a != F.valueKey b
    | 2 => !u && decide (F.valueKey a < F.valueKey b)
    | 3 => !u && decide (F.valueKey a ≤ F.valueKey b)
    | 4 => !u && decide (F.valueKey b < F.valueKey a)
    | 5 => !u && decide (F.valueKey b ≤ F.valueKey a)
    | 6 => !u
    | _ => u
  { val := v, fp := flagIf (x.snan || y.snan) flagIV, sat := false }

/-- The bit FCLASS sets (R176). -/
def FloatFmt.classBit (F : FloatFmt) (x : Nat) : Nat :=
  let sub := x / 2 ^ F.fb % 2 ^ F.eb == 0
  match F.read x with
  | .nan s => if s then 0 else 1
  | .inf n => if n then 2 else 9
  | .fin n m _ =>
    if m = 0 then (if n then 5 else 6)
    else if n then (if sub then 4 else 3)
    else (if sub then 7 else 8)

/-! ### The functions of R70 -/

/-- The bits of a result of R70 with one flag. -/
def special (bits : Nat) (fp : FpFlags) : Flagged Nat := { val := bits, fp := fp, sat := false }

/-- 1 ÷ a (R70). -/
def frcp (a : Nat) : Flagged Nat :=
  match fmtF32.read a with
  | .nan s => fmtF32.deliver (.nan s)
  | .inf n => .pure (if n then fmtF32.signBit else 0)
  | .fin n m e =>
    if m = 0 then special ((if n then fmtF32.signBit else 0) + fmtF32.infBits) flagDZ
    else fmtF32.deliver (stickyNum n (2 ^ 320 / m) (-320 - e) (2 ^ 320 % m != 0))

/-- The integer square root, from bit `k − 1` down, of a number below 2^(2k). -/
def isqrt (x : Nat) : Nat → Nat → Nat
  | 0, acc => acc
  | k + 1, acc => isqrt x k (if (acc + 2 ^ k) ^ 2 ≤ x then acc + 2 ^ k else acc)

/-- 1 ÷ √a (R70). -/
def frsq (a : Nat) : Flagged Nat :=
  match fmtF32.read a with
  | .nan s => fmtF32.deliver (.nan s)
  | .inf n => if n then special fmtF32.nan flagIV else .pure 0
  | .fin n m e =>
    if m = 0 then special ((if n then fmtF32.signBit else 0) + fmtF32.infBits) flagDZ
    else if n then special fmtF32.nan flagIV
    else
      let odd := e % 2 != 0
      let m' := if odd then 2 * m else m
      let e' := if odd then e - 1 else e
      let r := isqrt (2 ^ 400 / m') 201 0
      fmtF32.deliver (stickyNum false r (-200 - e' / 2) (r * r * m' != 2 ^ 400))

/-- The scale of the fixed-point numbers below: 320 fraction bits (log entry 31). -/
def fixBits : Nat := 320

/-- Σ z^(2i+1) ÷ (2i+1) for i from `i` on: artanh of z, fixed-point; `p` is the current power of z. -/
def artanhFix (z2 : Nat) : Nat → Nat → Nat → Nat
  | 0, _, _ => 0
  | k + 1, i, p => p / (2 * i + 1) + artanhFix z2 k (i + 1) (p * z2 / 2 ^ fixBits)

/-- ln of a/b, for b ≤ a ≤ 2b, fixed-point: 2 artanh((a − b) ÷ (a + b)). -/
def lnFix (a b : Nat) : Nat :=
  let z := (a - b) * 2 ^ fixBits / (a + b)
  2 * artanhFix (z * z / 2 ^ fixBits) 110 0 z

/-- ln 2, fixed-point. -/
def ln2Fix : Nat := lnFix 2 1

/-- Σ x^i ÷ i! from the term `i` on, fixed-point. -/
def expFix (x : Nat) : Nat → Nat → Nat → Nat
  | 0, _, _ => 0
  | k + 1, i, term => term + expFix x k (i + 1) (term * x / 2 ^ fixBits / (i + 1))

/-- 2^a (R70). -/
def fexp2 (a : Nat) : Flagged Nat :=
  match fmtF32.read a with
  | .nan s => fmtF32.deliver (.nan s)
  | .inf n => .pure (if n then 0 else fmtF32.infBits)
  | .fin n m e =>
    if m = 0 then .pure 0x3F800000
    else
      let top : Int := m.log2 + e
      if 9 ≤ top then fmtF32.deliver (if n then .fin false 1 (-400) else .fin false 1 400)
      else
        let i := (roundInt .tz n m e).1
        let f := (m % 2 ^ (-e).toNat) * 2 ^ (fixBits - (-e).toNat)
        if f = 0 || 0 ≤ e then fmtF32.deliver (.fin false 1 i)
        else
          let g := if n then 2 ^ fixBits - f else f
          let i' := if n then i - 1 else i
          fmtF32.deliver (stickyNum false (expFix (g * ln2Fix / 2 ^ fixBits) 80 0 (2 ^ fixBits)) (i' - fixBits) true)

/-- log2 a (R70). -/
def flog2 (a : Nat) : Flagged Nat :=
  match fmtF32.read a with
  | .nan s => fmtF32.deliver (.nan s)
  | .inf n => if n then special fmtF32.nan flagIV else .pure fmtF32.infBits
  | .fin n m e =>
    if m = 0 then special (fmtF32.signBit + fmtF32.infBits) flagDZ
    else if n then special fmtF32.nan flagIV
    else
      let k := m.log2
      let i : Int := k + e
      if m = 2 ^ k then fmtF32.deliver (Num.ofInt i)
      else
        let y : Int := i * 2 ^ fixBits + (lnFix m (2 ^ k) * 2 ^ fixBits / ln2Fix : Nat)
        fmtF32.deliver (stickyNum (y < 0) y.natAbs (-(fixBits : Int)) true)

/-! ### Conversions without a record (R77, R178, R179) -/

/-- FCVT of one element (R178). -/
def fcvtBits1 (D S : FloatFmt) (x : Nat) : Flagged Nat := D.deliver (S.read x)

/-- A floating value to an integer type (R77). -/
def toIntBits (F : IntFmt) (mode : RMode) (x : Num) : Flagged Nat :=
  match x with
  | .nan _ => { val := 0, fp := flagIV, sat := false }
  | .inf n => { val := F.sat (if n then F.lo else F.hi), fp := flagIV, sat := true }
  | .fin n m e =>
    let r := roundInt mode n m e
    if r.1 < F.lo || F.hi < r.1 then { val := F.sat (if n then F.lo else F.hi), fp := flagIV, sat := true }
    else { val := F.sat r.1, fp := flagIf r.2 flagNX, sat := false }

/-- An integer to FP32 (R179). -/
def ofIntBits (mode : RMode) (x : Int) : Flagged Nat :=
  let r := fmtF32.round mode (x < 0) x.natAbs 0
  { val := r.bits, fp := flagIf r.nx flagNX, sat := false }

/-- A saturating narrow conversion between integer types (R75, R179). -/
def narrowInt (F : IntFmt) (x : Int) : Flagged Nat := { val := F.sat x, fp := 0, sat := x < F.lo || F.hi < x }

end Sys2Proof.Machine
end

