-- ==== Sys2Proof/Machine/Legal.lean ====
section
/-!
DEFINITION. Legality of an instruction's fields: what spec 04 R88 to R98 and R101 and each opcode's
description allow. A breach is an illegal encoding (class 0x02) with the detail given here (R431).
-/
namespace Sys2Proof

/-- A condition that must hold with the detail code reported when it does not (R431). -/
abbrev Cond := Bool × BitVec 16

/-- The detail of the first condition that fails. -/
def firstFail : List Cond → Option (BitVec 16)
  | [] => none
  | (ok, d) :: r => if ok then firstFail r else some d

/-- A condition reported as detail 0x00 field value. -/
def fld (b : Bool) : Cond := (b, 0x00)
/-- A condition reported as detail 0x03 order or scope. -/
def ords (b : Bool) : Cond := (b, 0x03)
/-- A condition reported as detail 0x04 width. -/
def wid (b : Bool) : Cond := (b, 0x04)

/-! ### Prefix payloads (R96, R97) -/

/-- EXT payload: object number bits [11:6]. -/
def extOH (p : BitVec 24) : BitVec 6 := p.extractLsb' 18 6
def extSV (p : BitVec 24) : Bool := p.getLsbD 17
def extSCO (p : BitVec 24) : BitVec 3 := p.extractLsb' 14 3
def extOV (p : BitVec 24) : Bool := p.getLsbD 13
def extORD (p : BitVec 24) : BitVec 3 := p.extractLsb' 10 3
def extRes (p : BitVec 24) : BitVec 7 := p.extractLsb' 3 7
/-- HX: bit 5 of sd, sa, sb from [2] to [0]. -/
def extHX (p : BitVec 24) : BitVec 3 := p.extractLsb' 0 3

/-- Reserved bits zero, and no nonzero SCO or ORD that is not marked as given (R97, R98). -/
def extSane (p : BitVec 24) : Bool :=
  extRes p == 0 && (extSV p || extSCO p == 0) && (extOV p || extORD p == 0)

/-- EXT with OH, SV and OV allowed (form D, R98). -/
def extD (oh : Bool) (svov : Bool) (p : BitVec 24) : Bool :=
  extSane p && extHX p == 0 && (oh || extOH p == 0) && (svov || (!extSV p && !extOV p))

/-- EXT with OH only (form E). -/
def extE (oh : Bool) (p : BitVec 24) : Bool :=
  extSane p && extHX p == 0 && (oh || extOH p == 0) && !extSV p && !extOV p

/-- EXT with HX only (form H). -/
def extH (p : BitVec 24) : Bool :=
  extSane p && extOH p == 0 && !extSV p && !extOV p

/-! ### Field values -/

/-- The register number of a form H field with its HX bit (R97). -/
def hxReg (ext : Option (BitVec 24)) (bit : Nat) (f : BitVec 5) : Nat :=
  f.toNat + (if (ext.map fun p => (extHX p).getLsbD bit).getD false then 32 else 0)
def FormH.sd (f : FormH) : Nat := hxReg f.ext 2 f.d
def FormH.sa (f : FormH) : Nat := hxReg f.ext 1 f.a
def FormH.sb (f : FormH) : Nat := hxReg f.ext 0 f.b

/-- W18, bits [17:0] of a form C word (R88). -/
def FormC.w18 (f : FormC) : BitVec 18 := (f.a ++ f.b) ++ f.fn

/-- An immediate field of `k` bits with the IMM payload above it, as a natural number (R96). -/
def immNat {k : Nat} (field : BitVec k) (imm : Option (BitVec 24)) : Nat :=
  field.toNat + (imm.map fun p => p.toNat * 2 ^ k).getD 0

/-- The same immediate read as a signed number of its combined width (R96). -/
def immInt {k : Nat} (field : BitVec k) (imm : Option (BitVec 24)) : Int :=
  match imm with
  | none => field.toInt
  | some p => p.toInt * 2 ^ k + field.toNat

/-- Register groups of width code w select 2^w registers (R90). -/
def grpW (w : BitVec 2) : Nat := 2 ^ w.toNat

/-- Conditions common to form A opcodes with an element table (R163): variants below `n`, operand b by
`bsOk`, or unary. -/
def condA (f : FormA) (n : Nat) (bsOk : Bool) (unary : Bool) : List Cond :=
  [fld (f.var.toNat < n),
   fld (if unary then f.b == 0 && f.bs == 0 else if f.bs == 1 then bsOk && !f.b.getLsbD 6 else true)]

/-- The floating-format width in bits of an FCVT index (R178). -/
def fcvtBits (i : Nat) : Nat := if i = 0 then 32 else if i ≤ 2 then 16 else 8

/-- Bits of a format code (R50), 4 for q4. -/
def fmtBits (c : BitVec 4) : Nat :=
  match c.toNat with
  | 0 => 32 | 1 => 16 | 2 => 16 | 3 => 8 | 4 => 8 | 5 => 4 | 6 => 8 | 7 => 8
  | 8 => 16 | 9 => 16 | 10 => 32 | 11 => 32 | 12 => 64 | 13 => 64 | _ => 32

/-- Destination and source element widths of an ICVT conversion (R179). -/
def icvtBits (c : Nat) : Nat × Nat :=
  match c with
  | 0 => (32, 32) | 1 => (32, 32) | 2 => (16, 32) | 3 => (16, 32) | 4 => (8, 32) | 5 => (8, 32)
  | 6 => (32, 32) | 7 => (32, 32) | 8 => (32, 16) | 9 => (32, 16) | 10 => (32, 8) | 11 => (32, 8)
  | 12 => (16, 32) | 13 => (8, 32) | 14 => (16, 32) | _ => (8, 32)

/-- The count rule of R177. -/
def countRule (f : FormW) (sd ss : Nat) : Bool := grpW f.wa * sd == grpW f.wd * ss

/-- A form H word whose fields sd, sa, sb must be zero where the flags say so (R101). -/
def condH (f : FormH) (zd za zb : Bool) : List Cond :=
  [fld (!zd || f.sd == 0), fld (!za || f.sa == 0), fld (!zb || f.sb == 0)]

/-- Bits [hi:lo] of the nine-bit field are zero. -/
def fnZero (f : FormH) (lo n : Nat) : Cond := fld (f.fn.extractLsb' lo n == 0)

/-- Order and scope codes as EXT gives them for form D (R92, R269). -/
def condDord (f : FormD) (store : Bool) : Cond :=
  ords (match f.ext with
    | none => true
    | some p => (!extSV p || (extSCO p).toNat ≤ 5) &&
        (!extOV p || extORD p == 0 || extORD p == 4 || extORD p == (if store then 2 else 1)))

/-- Order and scope codes of form E (R92). -/
def condEord (f : FormE) (ok : List Nat) : Cond :=
  ords (ok.contains f.ord.toNat && f.sco.toNat ≤ 5)

/-- ORD, SCO, OPR and TYP all zero. -/
def condEzero (f : FormE) : List Cond :=
  [ords (f.ord == 0 && f.sco == 0), fld (f.opr == 0), fld (f.typ == 0)]

/-- The TYP codes ATOM and ATOMS allow for an operator (R274). -/
def atomTypes (opr : Nat) : List Nat :=
  match opr with
  | 0 => [10, 11, 12, 13, 0, 2]
  | 1 => [10, 11, 12, 13, 0]
  | 2 => [10, 11, 12, 13, 0]
  | 3 => [11, 13] | 4 => [11, 13] | 5 => [11, 13] | 6 => [11, 13]
  | 7 => [11]
  | _ => []

/-- Field conditions of ATOM and ATOMS (R274). -/
def condAtom (f : FormE) : List Cond :=
  [fld (f.sub.extractLsb' 1 3 == 0), fld (f.sub.getLsbD 0 || f.d == 0), fld (f.x.extractLsb' 11 2 == 0),
   fld ((atomTypes f.opr.toNat).contains f.typ.toNat),
   fld (if f.opr == 7 then f.x.extractLsb' 7 4 != 0 else f.x.extractLsb' 7 4 == 0),
   condEord f [0, 1, 2, 3, 4]]

/-- Field conditions of the lock operations (R279). -/
def condLock (f : FormE) (oprs : Nat) (rel : Bool) : List Cond :=
  [fld (f.d == 0), fld (f.typ == 13), fld (f.x == 0), fld (f.opr.toNat < oprs),
   fld (if rel then f.sub == 0 else !f.sub.getLsbD 3), condEord f [0, 1, 2, 3, 4]]

/-- The peer field of the fabric opcodes (R354, R367). -/
def condPeer (f : FormE) : List Cond :=
  [fld (f.x.extractLsb' 8 5 == 0), fld (f.x.getLsbD 7 || f.x.extractLsb' 0 7 == 0)]

/-- The formats an operand tile may hold (R297). -/
def operandFmt (c : BitVec 4) : Bool := 1 ≤ c.toNat && c.toNat ≤ 7

/-- The field conditions of an instruction, in the order in which they are checked. -/
def Instr.conds : Instr → List Cond
  | .sadd f | .ssub f | .smul f | .sand f | .sor f | .sxor f | .sshl f | .sshr f | .ssra f =>
    [fld ((f.imm.isNone && f.fn == 0) || f.b == 0)]
  | .smulh f | .sdiv f | .srem f | .smin f | .smax f => [fld (f.fn.toNat ≤ 1)]
  | .scmp f => [fld (f.d.extractLsb' 3 3 == 0), fld (f.fn.toNat ≤ 9)]
  | .ssel f => [fld (f.fn.extractLsb' 4 2 != 3)]
  | .smov f | .sclz f | .spopc f => [fld (f.b == 0), fld (f.fn == 0)]
  | .sli _ => []
  | .saddr f => [fld (f.fn.extractLsb' 3 3 == 0)]
  | .sbfe f => [fld (f.fn.toNat ≤ 1)]
  | .sbfi f => [fld (f.fn == 0)]
  | .sget f => [fld (immNat f.w18 f.imm ≤ 21)]
  | .bra _ | .call _ => []
  | .br f => [fld (f.d == 0), fld (f.b == 0), fld (f.fn.extractLsb' 4 2 == 0)]
  | .brx f | .callx f | .retv f => [fld (f.d == 0), fld (f.var.toNat ≤ 1), fld (f.bs == 1), fld (!f.b.getLsbD 6)]
  | .ret f | .yield f | .bsync f | .nop f => condH f true true true ++ [fld (f.fn == 0)]
  | .loop f => [fld (f.d != 0)]
  | .region f | .trap f | .sleep f => condH f true true true
  | .reconv f => [fld (f.pred == 0), fld (f.neg == 0)]
  | .getpc f => [fld (f.a == 0), fld (f.b == 0)]
  | .vadd f | .vsub f | .vmul f | .vmad f => condA f 4 true false
  | .vmulh f | .vmin f | .vmax f | .vadds f | .vsubs f => condA f 4 true false
  | .vabs f => condA f 3 false true
  | .vand f | .vor f | .vxor f => condA f 2 true false
  | .vshl f | .vshr f | .vsra f => condA f 3 true false
  | .vsrar f => condA f 2 true false
  | .vdot2s f => condA f 3 true false
  | .vcmp f => condA f 2 true false ++ [fld ((f.d.extractLsb' 3 4).toNat ≤ 5)]
  | .vsel _ => []
  | .vmov f =>
    [fld (f.sel.toNat ≤ 1),
     fld (if f.sel == 0 then f.wd == f.wa else f.wd.toNat ≤ 1 && f.wa == 0 && !f.a.getLsbD 6)]
  | .vli f => [fld (f.a == 0)]
  | .vbfe f => condA f 2 true false
  | .vpopc f => condA f 2 false true
  | .fadd f | .fsub f | .fmul f | .ffma f | .fmin f | .fmax f => condA f 1 true false
  | .fcmp f => condA f 1 true false ++ [fld ((f.d.extractLsb' 3 4).toNat ≤ 7)]
  | .frcp f | .frsq f | .fexp2 f | .flog2 f | .fclass f => condA f 1 false true
  | .fcvt f =>
    let di := (f.sel.extractLsb' 3 3).toNat; let si := (f.sel.extractLsb' 0 3).toNat
    [fld (di ≤ 4), fld (si ≤ 4), fld (di != si), wid (countRule f (fcvtBits di) (fcvtBits si))]
  | .icvt f =>
    let c := (f.sel.extractLsb' 0 4).toNat; let r := f.sel.extractLsb' 4 2
    [fld (r.toNat ≤ 1), fld (c < 8 || r == 0), wid (countRule f (icvtBits c).1 (icvtBits c).2)]
  | .pkadd f | .pkfma f => condA f 2 true false
  | .vslide f => [fld (f.bs == 1), fld (!f.b.getLsbD 6)]
  | .vshuf f => [fld (f.var != 3), fld (f.bs == 0 || (f.var == 2 && !f.b.getLsbD 6))]
  | .vbcast f => [fld (if f.var.toNat ≤ 1 then f.bs == 1 && !f.b.getLsbD 6 else f.b == 0 && f.bs == 0)]
  | .vreduce f =>
    [fld (f.var.toNat ≤ 1), fld (f.bs == 0), fld (f.b.toNat ≤ 10), fld (f.var == 0 || !f.d.getLsbD 6)]
  | .vscan f => [fld (f.var.toNat ≤ 1), fld (f.bs == 0), fld (f.b.toNat ≤ 10)]
  | .vote f =>
    [fld (f.a.extractLsb' 4 3 == 0), fld (f.b == 0 && f.bs == 0),
     fld (if f.var == 2 then !f.d.getLsbD 6 else f.d.extractLsb' 3 4 == 0)]
  | .pset f =>
    [fld (f.d.extractLsb' 3 4 == 0), fld (f.b == 0 && f.bs == 0),
     fld (if f.var == 0 then true else if f.var == 1 then !f.a.getLsbD 6 else f.a == 0)]
  | .pmov f =>
    [fld (f.d.extractLsb' 3 4 == 0), fld (f.a.extractLsb' 4 3 == 0), fld (f.b.extractLsb' 4 3 == 0), fld (f.bs == 0)]
  | .xcvt f =>
    [ords (f.ord == 0 && f.sco == 0), fld (f.opr == 0), fld (f.x == 0), fld ([0, 1, 2, 5].contains f.typ.toNat)]
  | .xpack f =>
    [fld (f.sel.toNat ≤ 3),
     wid (grpW f.wa * (if f.sel.toNat ≤ 1 then 16 else if f.sel == 2 then 8 else 4) == 32 * grpW f.wd)]
  | .xunpack f =>
    [fld (f.sel.toNat ≤ 5),
     wid (grpW f.wd * (if f.sel.toNat ≤ 1 then 16 else if f.sel.toNat ≤ 3 then 8 else 4) == 32 * grpW f.wa)]
  | .xtopk f =>
    [ords (f.ord == 0 && f.sco == 0), fld (f.opr == 0), fld (f.x == 0), fld (f.sub.toNat ≤ 3), fld (f.typ == 0 || f.typ == 2)]
  | .xcrc f => [fld (f.b == 0 && f.bs == 0)]
  | .xsort f =>
    [ords (f.ord == 0 && f.sco == 0), fld (f.opr == 0), fld (f.obj == 0), fld (f.sub.toNat ≤ 1),
     fld ([0, 10, 11].contains f.typ.toNat), fld (f.x.extractLsb' 8 5 == 0),
     fld (if f.x.getLsbD 7 then f.x.extractLsb' 0 7 != f.d else f.x.extractLsb' 0 7 == 0)]
  | .vmatch f => [fld (f.var.toNat ≤ 1), fld (f.b == 0 && f.bs == 0)]
  | .vlane f => [fld (if f.var == 2 then f.bs == 1 && !f.b.getLsbD 6 else f.a == 0 && f.b == 0 && f.bs == 0)]
  | .ld f | .ldg f => [condDord f false]
  | .st f | .stg f => [condDord f true]
  | .ldp f | .lds f => [fld (f.obj == 0), condDord f false]
  | .stp f | .sts f => [fld (f.obj == 0), condDord f true]
  | .fput f => [fld (f.off == 0), fld (f.obj.toNat ≤ 47), condDord f true]
  | .fget f => [fld (f.off == 0), fld (f.obj.toNat ≤ 47), condDord f false]
  | .ldu f => [fld (!f.data.getLsbD 6), condDord f false]
  | .stu f => [fld (!f.data.getLsbD 6), condDord f true]
  | .pref f => [fld (f.data.extractLsb' 2 5 == 0), fld (f.data.extractLsb' 0 2 != 3)]
  | .spadd f =>
    [fld (f.sub == 0), fld (f.opr == 0), fld (f.x == 0), fld ([0, 10, 2].contains f.typ.toNat), condEord f [0, 2, 4]]
  | .atom f => condAtom f
  | .atoms f => fld (f.obj == 0) :: condAtom f
  | .atomc f =>
    [fld (f.sub == 0), fld (f.opr == 0), fld (f.typ == 11 || f.typ == 13), fld (f.x.extractLsb' 7 6 == 0),
     condEord f [0, 1, 2, 3, 4]]
  | .atomx f =>
    [fld (f.sub == 0), fld (f.opr.toNat ≤ 1), fld (f.typ == 0), fld (f.x.extractLsb' 7 6 == 0), condEord f [0, 1, 2, 3, 4]]
  | .rwlrd f => condLock f 1 false
  | .rwlwr f => condLock f 4 false
  | .rwlup f => condLock f 1 false
  | .rwlrel f => condLock f 3 true
  | .fence f =>
    condH f true true true ++ [ords ((f.fn.extractLsb' 0 3).toNat ≤ 4), ords ((f.fn.extractLsb' 3 3).toNat ≤ 5), fnZero f 6 3]
  | .cpy f => condEzero f ++ [fld (f.a == 0), fld (f.x == 0), fld (f.sub.toNat ≤ 1)]
  | .cpyg f => condEzero f ++ [fld (f.x == 0), fld (f.sub.toNat ≤ 1)]
  | .cpyw f => condH f true true true ++ [fnZero f 6 3]
  | .dst f =>
    [ords (f.ord == 0 && f.sco == 0), fld (f.sub == 0), fld (f.opr.toNat ≤ 19), fld (f.typ == 0), fld (f.x == 0)]
  | .commit f => condH f false true true ++ [ords ([2, 4, 5].contains (f.fn.extractLsb' 0 3).toNat), fnZero f 3 6]
  | .cctlIfetch f => condH f true false false ++ [fld (f.fn == 0)]
  | .cctlFlush f => condH f true false false ++ [fld (f.fn == 1)]
  | .cctlWb f => condH f true false false ++ [fld (f.fn == 2)]
  | .bankcfg f => condH f true false true ++ [fnZero f 2 7]
  | .talloc f =>
    let fmt := f.ha.extractLsb' 0 4; let acc := f.hb.getLsbD 3; let rb := f.hb.extractLsb' 0 3
    [fld (!f.ha.getLsbD 4), fld (!f.hb.getLsbD 4), fld (f.la == 0), fld (f.mods == 0),
     fld (if acc then (fmt == 0 || fmt == 10) && rb == 0 else operandFmt fmt && (fmt != 5 || rb == 7))]
  | .tfree f => [fld (f.ha == 0), fld (f.hb == 0), fld (f.la == 0), fld (f.mods == 0)]
  | .thand f => condH f true false true ++ [fnZero f 5 4]
  | .ttake f => condH f true true true ++ [fnZero f 5 4]
  | .tld f | .tst f => condH f (!f.fn.getLsbD 8) false false ++ [fnZero f 6 2]
  | .tldw f => [fld (f.hd == 0), fld (f.hb == 0), fld (f.mods.extractLsb' 0 4 == 0)]
  | .tswap f => [fld (f.hd == 0), fld (f.ha == 0), fld (f.hb == 0), fld (f.la == 0), fld (f.mods.extractLsb' 1 4 == 0)]
  | .tmma f => [fld (f.mods.extractLsb' 0 3 != 7)]
  | .tmmac f => [fld (f.hb.extractLsb' 3 2 == 0), fld (!f.mods.getLsbD 3), fld (f.mods.extractLsb' 0 3 != 7)]
  | .tzero f => [fld (f.ha == 0), fld (f.hb == 0), fld (f.mods == 0)]
  | .tscale f =>
    [fld (f.mods.getLsbD 4 || f.mods.toNat ≤ 2),
     fld (!f.mods.getLsbD 4 || f.hb == 0), fld (f.mods != 2 || f.ha == 0)]
  | .ttrans f => [fld (f.hb == 0), fld (f.mods == 0)]
  | .tcvt f => condH f true false true ++ [fnZero f 5 4]
  | .tquant f =>
    condH f true false true ++ [fnZero f 6 3, fld (!f.fn.getLsbD 5 || !f.fn.getLsbD 0)]
  | .tadd f | .tmul f => [fld (f.mods.extractLsb' 0 3 == 0)]
  | .tred f => [fld (f.hb == 0), fld (f.mods.extractLsb' 2 2 == 0), fld (f.mods.extractLsb' 0 2 != 3)]
  | .tabsmax f => [fld (f.hb == 0), fld (f.mods == 0)]
  | .tgetrow f | .tsetrow f => condH f true false true
  | .tdrain f =>
    condH f false false (f.fn.extractLsb' 5 2 == 0) ++ [fld ((f.fn.extractLsb' 5 2).toNat ≤ 1), fnZero f 7 2]
  | .barinit f =>
    let sco := f.fn.extractLsb' 1 3
    condH f (!f.fn.getLsbD 4) false false ++
      [fnZero f 5 4, ords ([2, 3, 4].contains sco.toNat), ords (f.fn.getLsbD 0 || sco == 2)]
  | .barenrol f => condH f true (f.fn.getLsbD 3) (f.fn.getLsbD 3) ++ [fnZero f 4 5]
  | .bararrive f => condH f false false (!f.fn.getLsbD 2)
  | .barexpect f => [fnZero f 1 8]
  | .barwait f => condH f (!f.fn.getLsbD 1) false false ++ [fnZero f 5 4, fld (f.fn.getLsbD 1 || f.fn.extractLsb' 2 3 == 0)]
  | .stamptry f => condH f true false false ++ [fnZero f 3 6]
  | .stampset f => condH f true false false ++ [fld (f.fn == 0)]
  | .perfCtr f => condH f false false true ++ [fld (f.fn == 0)]
  | .perfMcfg f => condH f true false true ++ [fnZero f 5 4, fld (f.fn.extractLsb' 0 3 == 1)]
  | .perfMrd f => condH f false true false ++ [fnZero f 5 4, fld (f.fn.extractLsb' 0 3 == 2)]
  | .perfMclr f => condH f true true true ++ [fnZero f 5 4, fld (f.fn.extractLsb' 0 3 == 3)]
  | .spawn f => [fld (immNat f.fn f.imm < 2 ^ 32)]
  | .launch f => condH f false false true ++ [fld (f.fn == 0)]
  | .join f => condH f false false true ++ [fld (immNat f.fn f.imm < 2 ^ 32), fld (immNat f.fn f.imm != 0)]
  | .exit f => condH f true true true ++ [fld (f.fn == 0)]
  | .qdepth f => condH f false (f.fn.getLsbD 0) true ++ [fnZero f 1 8]
  | .park f => condH f true false true ++ [fld (immNat f.fn f.imm < 2 ^ 32)]
  | .collpush f =>
    [fld (!f.sub.getLsbD 3), fld (f.sub.getLsbD 0 || f.sub == 0), fld (f.opr == 0),
     fld (if f.sub.getLsbD 0 then f.typ == 0 || f.typ == 2 else [0, 2, 10, 11].contains f.typ.toNat)] ++ condPeer f ++
      [ords ([0, 2].contains f.ord.toNat && [4, 5].contains f.sco.toNat)]
  | .collpull f =>
    [fld (f.sub.toNat ≤ 1), fld (f.opr == 0), fld (f.typ == 11)] ++ condPeer f ++
      [ords ([0, 1].contains f.ord.toNat && [4, 5].contains f.sco.toNat)]
  | .netst f =>
    [fld (f.sub == 0), fld (f.opr == 0), fld (f.typ == 11 || f.typ == 13)] ++ condPeer f ++ [condEord f [0, 2, 4]]
  | .netld f =>
    [fld (f.sub == 0), fld (f.opr == 0), fld (f.typ == 11 || f.typ == 13)] ++ condPeer f ++ [condEord f [0, 1, 4]]
  | .collwait f => condH f false true true ++ [fld (f.fn == 0)]
  | .collwaitStat f => [fld (f.fn == 1)]
  | .collgrp f => condH f true false true ++ [fld (!f.fn.getLsbD 8)]
  | .collgrpClr f => condH f true true true ++ [fld (f.fn.getLsbD 8)]
  | .objset f => condH f true false false ++ [fld (f.fn == 0)]
  | .objsetClr f => condH f true false true ++ [fld (f.fn == 1)]
  | .objget f => condH f false false true ++ [fnZero f 2 7]
  | .rwload f => condH f true false true ++ [fnZero f 7 2, fld ((f.fn.extractLsb' 0 7).toNat ≤ 64)]
  | .feat _ => []
  | .tlbinvVa f => condH f (!f.fn.getLsbD 2) false false ++ [fnZero f 3 6, fld (f.fn.extractLsb' 0 2 == 0)]
  | .tlbinvAll f => condH f (!f.fn.getLsbD 2) true true ++ [fnZero f 3 6, fld (f.fn.extractLsb' 0 2 == 1)]
  | .tlbinvObj f => condH f (!f.fn.getLsbD 2) false false ++ [fnZero f 3 6, fld (f.fn.extractLsb' 0 2 == 2)]
  | .csr f => [fld (f.fn.toNat ≤ 5 || (0x100 ≤ f.fn.toNat && f.fn.toNat ≤ 0x10F))]
  | _ => []

/-- An operand group: first register and how many (R90). -/
abbrev Grp := Nat × Nat

/-- Groups of a form A instruction of element width `w` registers; b only when it names a vector. -/
def grpA (f : FormA) (w : Nat) (unary : Bool) : List Grp :=
  [(f.d.toNat, w), (f.a.toNat, w)] ++ (if unary || f.bs == 1 then [] else [(f.b.toNat, w)])

/-- The offset register of forms D and E; field 0 names none (R265). -/
def grpOff (r : BitVec 7) : List Grp := if r == 0 then [] else [(r.toNat, 1)]

/-- The peer register of the fabric opcodes (R354). -/
def grpPeer (f : FormE) : List Grp := if f.x.getLsbD 7 then [((f.x.extractLsb' 0 7).toNat, 1)] else []

/-- Registers a deferred operator's value takes (R290). -/
def dstWords (opr : BitVec 5) : Nat := if [1, 15, 16, 17, 19].contains opr.toNat then 2 else 1

/-- Registers a value of format code TYP takes: 2 for 64-bit codes. -/
def typWords (t : BitVec 4) : Nat := if t == 12 || t == 13 then 2 else 1

/-- The vector register groups an instruction names (R89, R90). -/
def Instr.groups : Instr → List Grp
  | .brx f | .callx f | .retv f => [(f.a.toNat, 1)]
  | .vadd f | .vsub f | .vmul f | .vmad f => grpA f (if f.var == 3 then 2 else 1) false
  | .vmulh f | .vmin f | .vmax f | .vadds f | .vsubs f | .vsrar f | .vdot2s f | .vbfe f
  | .fadd f | .fsub f | .fmul f | .ffma f | .fmin f | .fmax f | .pkadd f | .pkfma f => grpA f 1 false
  | .vabs f | .vpopc f | .frcp f | .frsq f | .fexp2 f | .flog2 f | .fclass f => grpA f 1 true
  | .vand f | .vor f | .vxor f => grpA f (if f.var == 1 then 2 else 1) false
  | .vshl f | .vshr f | .vsra f => grpA f (if f.var == 2 then 2 else 1) false
  | .vcmp f | .fcmp f => (f.a.toNat, 1) :: (if f.bs == 1 then [] else [(f.b.toNat, 1)])
  | .vsel f => [(f.d.toNat, 1), (f.a.toNat, 1), (f.b.toNat, 1)]
  | .vmov f => if f.sel == 0 then [(f.d.toNat, grpW f.wd), (f.a.toNat, grpW f.wa)] else [(f.d.toNat, grpW f.wd)]
  | .vli f => [(f.d.toNat, 1)]
  | .fcvt f | .icvt f | .xpack f | .xunpack f => [(f.d.toNat, grpW f.wd), (f.a.toNat, grpW f.wa)]
  | .vslide f => [(f.d.toNat, 1), (f.a.toNat, if f.var.toNat ≤ 1 then 2 else 1)]
  | .vshuf f => [(f.d.toNat, 1), (f.a.toNat, 1)] ++ (if f.bs == 1 then [] else [(f.b.toNat, 1)])
  | .vbcast f => let w := if f.var == 1 || f.var == 3 then 2 else 1; [(f.d.toNat, w), (f.a.toNat, w)]
  | .vreduce f => (f.a.toNat, 1) :: (if f.var == 0 then [(f.d.toNat, 1)] else [])
  | .vscan f => [(f.d.toNat, 1), (f.a.toNat, 1)]
  | .pset f => if f.var == 0 then [(f.a.toNat, 1)] else []
  | .vmatch f => [(f.d.toNat, 1), (f.a.toNat, if f.var == 1 then 2 else 1)]
  | .vlane f => (f.d.toNat, 1) :: (if f.var == 2 then [(f.a.toNat, 1)] else [])
  | .xcvt f => [(f.d.toNat, grpW (f.sub.extractLsb' 2 2)), (f.a.toNat, grpW (f.sub.extractLsb' 0 2))]
  | .xtopk f => [(f.d.toNat, 1), (f.a.toNat, if f.typ == 0 then 2 else 1)]
  | .xcrc f => [(f.d.toNat, 1), (f.a.toNat, if f.var == 3 then 2 else 1)]
  | .xsort f =>
    [(f.d.toNat, 1), (f.a.toNat, 1)] ++ (if f.x.getLsbD 7 then [((f.x.extractLsb' 0 7).toNat, 1)] else [])
  | .ld f | .st f | .ldp f | .stp f | .lds f | .sts f | .ldg f | .stg f => (f.data.toNat, 1) :: grpOff f.off
  | .fput f | .fget f => [(f.data.toNat, 1)]
  | .ldu f | .stu f | .pref f => grpOff f.off
  | .spadd f => (f.d.toNat, 1) :: grpOff f.a
  | .atom f | .atoms f =>
    (if f.sub.getLsbD 0 then [(f.d.toNat, typWords f.typ)] else []) ++
      ((f.x.extractLsb' 0 7).toNat, typWords f.typ) :: grpOff f.a
  | .atomc f => (f.d.toNat, typWords f.typ) :: ((f.x.extractLsb' 0 7).toNat, typWords f.typ) :: grpOff f.a
  | .atomx f => (f.d.toNat, 4) :: ((f.x.extractLsb' 0 7).toNat, 4) :: grpOff f.a
  | .rwlrd f | .rwlwr f | .rwlup f | .rwlrel f => grpOff f.a
  | .cpy f => [(f.d.toNat, 1)]
  | .cpyg f => (f.d.toNat, 1) :: grpOff f.a
  | .dst f => (f.d.toNat, dstWords f.opr) :: grpOff f.a
  | .tgetrow f | .tsetrow f => [(8 * (f.fn.extractLsb' 5 4).toNat, 8)]
  | .collpush f => (f.d.toNat, if f.sub.getLsbD 0 && f.typ == 0 then 2 else 1) :: (grpOff f.a ++ grpPeer f)
  | .collpull f => (f.d.toNat, 1) :: (grpOff f.a ++ grpPeer f)
  | .netst f | .netld f => (f.d.toNat, typWords f.typ) :: (grpOff f.a ++ grpPeer f)
  | _ => []

/-- A group must start at a multiple of its size, or the encoding is illegal (detail 0x02, R90). -/
def grpAligned (g : Grp) : Bool := g.1 % g.2 == 0

/-- The payloads of an instruction's prefixes. -/
def Instr.prefixes : Instr → Option (BitVec 24) × Option (BitVec 24)
  | .sadd f | .ssub f | .smul f | .smulh f | .sdiv f | .srem f | .sand f | .sor f | .sxor f | .sshl f | .sshr f
  | .ssra f | .smin f | .smax f | .scmp f | .ssel f | .smov f | .sli f | .saddr f | .sclz f | .spopc f | .sbfe f
  | .sbfi f | .sget f | .br f | .loop f | .getpc f | .feat f => (f.imm, none)
  | .bra f | .call f | .reconv f => (f.imm, none)
  | .vli f => (f.imm, none)
  | .ld f | .st f | .ldp f | .stp f | .lds f | .sts f | .ldg f | .stg f | .pref f | .fput f | .fget f | .ldu f
  | .stu f => (f.imm, f.ext)
  | .xcvt f | .xtopk f | .xsort f | .spadd f | .atom f | .atomc f | .atoms f | .rwlrd f | .rwlwr f | .rwlup f
  | .rwlrel f | .cpy f | .cpyg f | .dst f | .atomx f | .collpush f | .collpull f | .netst f | .netld f => (f.imm, f.ext)
  | .ret f | .yield f | .region f | .bsync f | .trap f | .sleep f | .nop f | .fence f | .cpyw f | .commit f
  | .cctlIfetch f | .cctlFlush f | .cctlWb f | .bankcfg f | .thand f | .ttake f | .tld f | .tst f | .tcvt f
  | .tquant f | .tgetrow f | .tsetrow f | .tdrain f | .barinit f | .barenrol f | .bararrive f | .barexpect f
  | .barwait f | .stamptry f | .stampset f | .perfCtr f | .perfMcfg f | .perfMrd f | .perfMclr f | .spawn f
  | .launch f | .join f | .exit f | .qdepth f | .park f | .collwait f | .collwaitStat f | .collgrp f
  | .collgrpClr f | .objset f | .objsetClr f | .objget f | .rwload f | .tlbinvVa f | .tlbinvAll f | .tlbinvObj f
  | .csr f => (f.imm, f.ext)
  | _ => (none, none)

/-- Whether the opcode accepts an IMM prefix (R98 and each description). -/
def Instr.immOk : Instr → Bool
  | .sadd _ | .ssub _ | .smul _ | .sand _ | .sor _ | .sxor _ | .sshl _ | .sshr _ | .ssra _ | .sli _ | .sget _
  | .bra _ | .call _ | .reconv _ | .loop _ | .region _ | .sleep _ | .getpc _ | .vli _ | .ld _ | .st _ | .ldp _ | .stp _
  | .lds _ | .sts _ | .ldg _ | .stg _ | .ldu _ | .stu _ | .pref _ | .spadd _ | .atom _ | .atomc _ | .atoms _
  | .atomx _ | .rwlrd _ | .rwlwr _ | .rwlup _ | .rwlrel _ | .cpy _ | .cpyg _ | .dst _ | .spawn _ | .join _
  | .park _ | .collpush _ | .collpull _ | .netst _ | .netld _ | .feat _ => true
  | _ => false

/-- Whether an EXT payload may stand before the instruction (R97, R98 and each description). The words that decode to the row
ILLEGAL_ENCODING are of form H: CCTL, PERF, COLLWAIT and TLBINV with a selector that their descriptions do not list. ATOMS, whose object
field is 0 (R274), is taken not to accept an OH, though its form does (R98): the prefix is the illegal one (log entry 9). -/
def Instr.extOk (i : Instr) (p : BitVec 24) : Bool :=
  match i with
  | .ld _ | .st _ | .ldg _ | .stg _ | .ldu _ | .stu _ => extD true true p
  | .ldp _ | .stp _ | .lds _ | .sts _ | .fput _ | .fget _ => extD false true p
  | .pref _ => extD true false p
  | .spadd _ | .atom _ | .atomc _ | .atomx _ | .rwlrd _ | .rwlwr _ | .rwlup _ | .rwlrel _ | .cpy _ | .cpyg _
  | .dst _ | .collpush _ | .collpull _ | .netst _ | .netld _ => extE true p
  | .atoms _ => extE false p
  | .fence _ | .cpyw _ | .commit _ | .cctlIfetch _ | .cctlFlush _ | .cctlWb _ | .bankcfg _ | .thand _ | .ttake _
  | .tld _ | .tst _ | .tcvt _ | .tquant _ | .tgetrow _ | .tsetrow _ | .tdrain _ | .barinit _ | .barenrol _
  | .bararrive _ | .barexpect _ | .barwait _ | .stamptry _ | .stampset _ | .perfCtr _ | .perfMcfg _ | .perfMrd _
  | .perfMclr _ | .spawn _ | .launch _ | .join _ | .exit _ | .qdepth _ | .park _ | .collwait _ | .collwaitStat _
  | .collgrp _ | .collgrpClr _ | .objset _ | .objsetClr _ | .objget _ | .rwload _ | .tlbinvVa _ | .tlbinvAll _
  | .tlbinvObj _ | .csr _ | .illegalEncoding .. => extH p
  | _ => false

/-- The prefixes an instruction carries are ones its opcode accepts (R98). -/
def Instr.prefixesOk (i : Instr) : Bool :=
  (i.prefixes.1.isNone || i.immOk) && (i.prefixes.2.map (Instr.extOk i)).getD true

/-- The detail of the illegal encoding of the base or extension word, or none: field values first, then
group alignment, then registers beyond the warp's allocation of `regs` (R89, R90, R101; log entry 9). -/
def Instr.fieldFault (i : Instr) (regs : Nat) : Option (BitVec 16) :=
  firstFail (i.conds ++ i.groups.map (fun g => (grpAligned g, 0x02)) ++ i.groups.map (fun g => (decide (g.1 + g.2 ≤ regs), 0x01)))

/-- Event rows are no instruction of a stream. -/
def Instr.isEvent : Instr → Bool
  | .gridCompletion .. | .dispense .. | .staggerExpiry .. | .issueSelect .. | .longLatencyStall ..
  | .pendingWaitExchange .. | .loadResponse .. | .atomicResponse .. | .fenceComplete .. | .fenceConflict ..
  | .sleepExpiry .. | .barwaitBoundExpiry .. | .barwaitObserve .. | .xformAccept .. | .xformComplete ..
  | .tileComplete .. | .windowMatch .. | .bankModeChangeComplete .. | .jobStart .. | .jobComplete .. | .jobSuspend ..
  | .jobFault .. | .faultRetry .. | .preemptTimeout .. | .saveBlock .. | .cataloguerTake .. | .binPark ..
  | .remoteBinForward .. | .closeT .. | .commitAck .. | .commitRemoteTimeout .. | .tagWaitTimeout ..
  | .tagHoldExpiry .. | .tagGrant .. | .contributionArrival .. | .slotTimeout .. | .ingressHoldTimeout ..
  | .deliveryWrite .. | .pullArrival .. | .holdRetireTimeout .. | .netstArrival .. | .netldArrival ..
  | .fabricResponse .. | .fabricRequestTimeout .. | .monitorSample .. | .limiterSample .. | .vchModeWrite ..
  | .vchFpWrite .. | .hostMemAccess .. | .powerUp | .bootgo .. | .firmwareVerified | .firmwareRunning | .linkDown ..
  | .semAcquire .. | .semRelease .. | .errClear .. | .ctxenWrite .. | .qapp .. | .tailinc .. | .preStart ..
  | .quiesceGallery .. | .returnGallery .. | .substitute .. | .rowRepair .. | .spanRetrain .. | .monitorReset ..
  | .moncfg .. | .eccClear .. | .att .. | .registerWrite .. | .illegalInstruction .. | .illegalEncoding ..
  | .storePerformed .. | .softError .. | .powerLoss | .vchModeChangeComplete .. | .spanRetrainComplete ..
  | .rowRepairComplete .. => true
  | _ => false

end Sys2Proof
end

