-- ==== Sys2Proof/Machine/Operands.lean ====
section
/-!
DEFINITION. Operand forms: operand B of scalar instructions (R131), operand b of form A (R163), per-lane
offsets (R265), branch displacements (R94).
-/
namespace Sys2Proof.Machine

/-- Operand B of the scalar opcodes (R131): the immediate when an IMM prefix is present or field6 is nonzero,
sign-extended or zero-extended, else s(b). -/
def Warp.operandB (w : Warp) (f : FormC) (signed : Bool) : Word64 :=
  if f.imm.isSome || f.fn != 0 then
    if signed then BitVec.ofInt 64 (immInt f.fn f.imm) else BitVec.ofNat 64 (immNat f.fn f.imm)
  else w.rs f.b.toNat

/-- Left shift; a count of the width or more gives 0 (R75). -/
def shlW {n : Nat} (x : BitVec n) (k : Nat) : BitVec n := if n ≤ k then 0 else x <<< k
/-- Logical right shift; a count of the width or more gives 0 (R75). -/
def shrW {n : Nat} (x : BitVec n) (k : Nat) : BitVec n := if n ≤ k then 0 else x >>> k
/-- Arithmetic right shift; a count of the width or more gives copies of the sign (R75). -/
def sraW {n : Nat} (x : BitVec n) (k : Nat) : BitVec n := x.sshiftRight (min k n)

/-- Operand b of a form A instruction in lane `l`: v(b), or s(b) truncated to 32 bits with BS = 1 (R88, R163). -/
def Warp.opB (w : Warp) (f : FormA) (l : Nat) : Word32 :=
  if f.bs == 1 then (w.rs (f.b.toNat % 64)).setWidth 32 else w.rv f.b.toNat l

/-- The 64-bit operand b: the pair v(b), v(b+1), or the whole of s(b) with BS = 1 (R163). -/
def Warp.opB64 (w : Warp) (f : FormA) (l : Nat) : Word64 :=
  if f.bs == 1 then w.rs (f.b.toNat % 64) else w.rv64 f.b.toNat l

/-- The IMM displacement of forms D and E in bytes (R96, R265). -/
def immDisp (imm : Option (BitVec 24)) : Int := (imm.map BitVec.toInt).getD 0

/-- The lane offset of an object, gang-window or scratchpad access: v(r)[L] read as n32 plus the displacement;
register field 0 names none (R265). -/
def Warp.laneOff (w : Warp) (r : BitVec 7) (disp : Int) (l : Nat) : Int :=
  (if r == 0 then 0 else ((w.rv r.toNat l).toNat : Int)) + disp

/-- The lane offset of LDP and STP: v(r)[L] read as i32 plus the displacement (R207, R265). -/
def Warp.laneOffS (w : Warp) (r : BitVec 7) (disp : Int) (l : Nat) : Int :=
  (if r == 0 then 0 else (w.rv r.toNat l).toInt) + disp

/-- The object number of forms D and E: OH × 64 plus the field (R97). -/
def objNum (field : BitVec 6) (ext : Option (BitVec 24)) : Nat := field.toNat + 64 * ((ext.map (fun p => (extOH p).toNat)).getD 0)

/-- The address of the base word of the instruction in view (R94). -/
def View.baseAddr (t : View) (ext : Bool) : Addr :=
  t.pc + BitVec.ofNat 64 (4 * (t.words.length - (if ext then 2 else 1)))

/-- A target: the address of the base word plus 4 × a signed word offset (R94). -/
def View.target (t : View) (off : Int) : Addr := t.baseAddr false + BitVec.ofInt 64 (4 * off)

end Sys2Proof.Machine
end

