-- ==== Sys2Proof/Config.lean ====
section
/-!
DEFINITION. What the spec leaves open: constants without a body, so that nothing can be proved of their
values (log entries 1, 2, 3). Each is applied to plain data of the state.
-/
namespace Sys2Proof.Config

/-- The event that is tried after the step numbered `tick` (log entry 1). -/
opaque schedule (tick : Nat) : Instr

/-- Arithmetic-clock cycles that pass in the step numbered `tick` (R122, sr.clock; log entry 1). -/
opaque cycles (tick : Nat) : Nat

/-- A free choice among finitely many allowed outcomes: `salt` names the choice within the step. -/
opaque pick (tick : Nat) (salt : List Nat) : Nat

/-- Whether the viaduct's routing table, which firmware sets, holds a route to a device (R335, R355). -/
opaque routed (home : BitVec 6) : Bool

/-- FEAT word 2 bits [23:16], the silicon revision (R390). -/
opaque stepping : BitVec 8

/-- SHAKE256 with 64 bytes of output (R457; log entry 2). -/
opaque shake256 (message : List Byte) : BitVec 512

/-- The digest of the firmware signer's key that is fused in the I/O die (R455; log entry 2). -/
opaque fusedDigest : BitVec 512

/-- Whether an ML-DSA-65 signature over a digest verifies under a key (R455; log entry 2). -/
opaque verifies (key signature : List Byte) (digest : BitVec 512) : Bool

/-- The digest of the translator's code object (R457; log entry 2). -/
opaque translatorDigest : BitVec 512

/-- The device's ML-DSA-65 signature of a message, with its attestation key (R457; log entry 2). -/
opaque attest (message : List Byte) : List Byte

end Sys2Proof.Config
end

