-- ==== Sys2Proof/Machine/Translate.lean ====
section
/-!
DEFINITION. Physical memory, context descriptors, the page table and the object table (spec 09 R222,
R223; spec 15 R378 to R386). Cached copies may outlive their source until TLBINV or OBJSET drops them:
where a cached copy differs from memory, each access uses one of the two, freely chosen.
-/
namespace Sys2Proof.Machine

/-- Adds the elements of a list that are not there yet. -/
def addAll {α : Type} [BEq α] (l : List α) (xs : List α) : List α :=
  xs.foldl (fun acc x => if acc.contains x then acc else acc ++ [x]) l

/-- The sectors of 128 bytes that a byte range touches. -/
def sectorsOf (pa n : Nat) : List Nat :=
  if n = 0 then [] else (List.range ((pa + n - 1) / 128 - pa / 128 + 1)).map (fun i => pa / 128 + i)

/-- A change of a watched sector before a fence completes is an invalidation the fence must act on (R225, R253). -/
def Warp.invalidate (w : Warp) (secs : List Nat) : Warp :=
  match w.fence with
  | none => w
  | some f => if f.watch.any secs.contains then { w with fence := some { f with hit := true } } else w

/-- The sectors that a store changes, as they were: while a grid is in flight or enqueued, its code may still be fetched in that
form (R104). -/
def State.replaced (s : State) (pa : Nat) (bytes : List Byte) : List OldCode :=
  if s.grids.isEmpty && s.queueTimes.isEmpty then []
  else
    (sectorsOf pa bytes.length).filterMap (fun k =>
      let old := Cells.getMany s.mem (128 * k) 128
      if old == Cells.getMany (Cells.setMany s.mem pa bytes) (128 * k) 128 then none
      else some { sector := k, ended := s.tick, bytes := old })

/-- Stores bytes to physical memory in one event, and invalidates watched copies of their sectors (R225, R241). -/
def State.putMem (s : State) (pa : Nat) (bytes : List Byte) : State :=
  { s with
    mem := Cells.setMany s.mem pa bytes,
    oldCode := s.oldCode ++ s.replaced pa bytes,
    cores := s.cores.map (fun c =>
      { c with block := { c.block with warps := c.block.warps.map (fun w => w.invalidate (sectorsOf pa bytes.length)) } }) }

/-! ### The physical map (R222, R223) -/

/-- What a physical address maps (R222). -/
inductive PhysRegion where
  | dram
  | accession
  | reserved
  | host
  | aperture
  deriving DecidableEq, Repr

/-- The physical map (R222). -/
def physRegion (pa : Nat) : PhysRegion :=
  if pa < 0x7F80000000 then .dram
  else if pa < 0x8000000000 then .accession
  else if pa < 0x10000000000 then .reserved
  else if pa < 0x800000000000 then .host
  else .aperture

/-- The memory channel of a physical address (R223). -/
def channelOf (pa : Nat) : Nat := pa / 2 ^ 11 % 256

/-- The row segment of a physical address (R223). -/
def rowOf (pa : Nat) : Nat := pa / 2 ^ 19

/-- The home slice of a physical address (R223). -/
def homeSlice (pa : Nat) : Nat :=
  let y := pa / 2 ^ 10
  8 * (y % 5) + (List.range 13).foldl (fun f k => f ^^^ (y / 2 ^ (3 * k) % 8)) 0

/-! ### Sectors of the home slices (R17, R224, R226, R234) -/

/-- The bytes of a sector that a home slice holds and that differ from the vault cache's. -/
def State.homeOld (s : State) (sec : Nat) : Option (List Byte) := (s.home.find? (fun e => e.sector == sec)).bind HomeSector.old

/-- The error mark of a word of the shared cache when its sector leaves: written back with a dirty one, gone with a clean one (R437). -/
def Place.leave (sec : Nat) (dirty : Bool) (p : Place) : Option Place :=
  match p with
  | .cached w => if w / 32 != sec then some p else if dirty then some (.memory w) else none
  | p => some p

/-- A sector leaves its home slice; a dirty one is written back, over what a conservator has applied since (R234). -/
def State.evict (s : State) (sec : Nat) : State :=
  let e := s.home.find? (fun e => e.sector == sec)
  let rest := { s with
    home := s.home.filter (fun e => e.sector != sec)
    bad := s.bad.filterMap (Place.leave sec ((e.map HomeSector.dirty).getD false)) }
  match e with
  | some { sector := _, dirty := true, stream := _, old := some bs } => rest.putMem (128 * sec) bs
  | _ => rest

/-- A dirty sector is written back and stays, clean; a clean one stays as it is (R293). -/
def State.clean (s : State) (sec : Nat) : State :=
  match s.home.find? (fun e => e.sector == sec) with
  | some { sector := _, dirty := true, stream := st, old := _ } =>
    let s1 := s.evict sec
    { s1 with home := s1.home ++ [{ sector := sec, dirty := false, stream := st, old := none }] }
  | _ => s

/-- What `f` does to the eight sectors of the line that a sector lies in. -/
def State.onLine (s : State) (f : State → Nat → State) (sec : Nat) : State :=
  if s.home.isEmpty then s else (List.range 8).foldl (fun u i => f u (8 * (sec / 8) + i)) s

/-- The eight sectors of a line leave their home slice before an access of a deferred page (R226, R234). -/
def State.evictLine (s : State) (sec : Nat) : State := s.onLine State.evict sec

/-- The slice and the set of a sector's line (R223, R224); which of the 256 sets a line falls in is not stated (log entry 80). -/
def homeSet (sec : Nat) : Nat × Nat := (homeSlice (128 * sec), sec / 8 % 256)

/-- The lines that the set of a sector's line holds. -/
def State.setLines (s : State) (sec : Nat) : List Nat :=
  addAll [] ((s.home.filter (fun e => homeSet e.sector == homeSet sec)).map (fun e => e.sector / 8))

/-- A line's place in its set: there already or free among the 24 ways, or else one line leaves, a streaming one first; which of
them is free (R224, R226). -/
def State.makeRoom (s : State) (sec : Nat) : State :=
  let ls := s.setLines sec
  if ls.contains (sec / 8) || ls.length < 24 then s
  else
    let first := ls.filter (fun l => s.home.any (fun e => e.sector / 8 == l && e.stream))
    let cs := if first.isEmpty then ls else first
    s.evictLine (8 * cs.getD (Config.pick s.tick [91, sec] % cs.length) 0)

/-- A home slice takes a sector for an access of a cache class (R224, R226). -/
def State.holdSector (s : State) (cls : Nat) (dirty : Bool) (sec : Nat) : State :=
  match s.home.find? (fun e => e.sector == sec) with
  | some e =>
    let st := e.stream && cls == 2
    if (dirty && !e.dirty) || st != e.stream then
      { s with home := s.home.map (fun x => if x.sector == sec then { x with dirty := x.dirty || dirty, stream := st } else x) }
    else s
  | none =>
    let s1 := s.makeRoom sec
    { s1 with home := s1.home ++ [{ sector := sec, dirty := dirty, stream := cls == 2, old := none }] }

/-- The home slices take the sectors of an access of DRAM, unless it is uncached (R226). -/
def State.holdRange (s : State) (cls : Nat) (dirty : Bool) (pa n : Nat) : State :=
  if physRegion pa == .dram && cls < 3 then (sectorsOf pa n).foldl (fun u k => u.holdSector cls dirty k) s else s

/-- Bytes read through their home slice: where the slice and the vault cache differ, one of the two for each sector (R234). -/
def State.homeBytes (s : State) (pa n : Nat) : List Byte :=
  if (sectorsOf pa n).all (fun k => (s.homeOld k).isNone) then Cells.getMany s.mem pa n
  else
    (List.range n).map (fun i =>
      match s.homeOld ((pa + i) / 128) with
      | some bs => if Config.pick s.tick [92, (pa + i) / 128] % 2 = 0 then bs.getD ((pa + i) % 128) 0 else Cells.get s.mem (pa + i)
      | none => Cells.get s.mem (pa + i))

/-- Reads `n` bytes of physical memory as a little-endian number. -/
def State.readPhys (s : State) (pa n : Nat) : Nat := leNat (s.homeBytes pa n)

/-- An aligned doubleword of physical memory. -/
def State.readDw (s : State) (pa : Nat) : Word64 := BitVec.ofNat 64 (s.readPhys pa 8)

/-- A store through the home slice: where the slice's bytes differ from the vault cache's they take the store, and the vault
cache when they are written back (R224, R234). -/
def State.writePhys (s : State) (pa : Nat) (bytes : List Byte) (cls : Nat := 0) : State :=
  if (sectorsOf pa bytes.length).all (fun k => (s.homeOld k).isNone) then (s.putMem pa bytes).holdRange cls true pa bytes.length
  else
    ((List.range bytes.length).zip bytes).foldl (fun u x =>
      let a := pa + x.1
      match u.homeOld (a / 128) with
      | none => (u.putMem a [x.2]).holdRange cls true a 1
      | some bs => { u with
          home := u.home.map (fun e => if e.sector == a / 128 then { e with dirty := true, old := some (bs.set (a % 128) x.2) } else e)
          cores := u.cores.map (fun c =>
            { c with block := { c.block with warps := c.block.warps.map (fun w => w.invalidate [a / 128]) } }) }) s

/-- A conservator writes to a row through the vault cache; a home slice that holds the sector keeps it as it was (R229, R234). -/
def State.applyWrite (s : State) (pa : Nat) (bytes : List Byte) : State :=
  let secs := sectorsOf pa bytes.length
  let keep (e : HomeSector) : HomeSector :=
    if secs.contains e.sector && e.old.isNone then { e with old := some (Cells.getMany s.mem (128 * e.sector) 128) } else e
  ({ s with home := s.home.map keep } : State).putMem pa bytes

/-! ### Context descriptors (R378) -/

/-- A context descriptor as the context table holds it. Low bits of PTR, OBJT and QCB that are not aligned raise no stated fault: those
of PTR are dropped, OBJT and QCB are used as they are (log entry 81). -/
def State.readCtxDesc (s : State) (ctx : Nat) : CtxDesc :=
  let a := s.host.ctxbase.toNat + 64 * ctx
  let w0 := s.readDw a
  let ptr := s.readDw (a + 8)
  let objt := s.readDw (a + 16)
  let qcb := s.readDw (a + 24)
  let trap := s.readDw (a + 32)
  { ok := w0 == 1 && ptr.extractLsb' 48 16 == 0 && objt.extractLsb' 55 9 == 0 && qcb.extractLsb' 55 9 == 0 &&
      trap.extractLsb' 55 9 == 0 && s.readDw (a + 40) == 0 && s.readDw (a + 48) == 0 && s.readDw (a + 56) == 0,
    ptr := (ptr.extractLsb' 16 32).toNat * 65536, objt := objt, qcb := qcb, trap := trap }

/-- One of the copies that differ from what memory holds, or what memory holds. -/
def chooseCopy {α : Type} (s : State) (salt : List Nat) (fresh : α) (stale : List α) : α :=
  match stale with
  | [] => fresh
  | _ :: _ => (fresh :: stale).getD (Config.pick s.tick salt % (stale.length + 1)) fresh

/-- The descriptor an access of a context uses (R378, R393). -/
def State.ctxDesc (s : State) (ctx : Nat) (salt : List Nat) : CtxDesc :=
  let fresh := s.readCtxDesc ctx
  chooseCopy s (0 :: ctx :: salt) fresh
    (((s.descCache.filter (fun e => e.1 == ctx)).map Prod.snd).filter (fun d => d != fresh))

/-! ### The page table (R382, R383) -/

/-- A leaf found by a walk: the physical address of the byte translated and the entry. -/
structure Leaf where
  pa : Nat
  pte : Word64
  deriving DecidableEq, Repr

def pteV (e : Word64) : Bool := e.getLsbD 0
def pteR (e : Word64) : Bool := e.getLsbD 1
def pteW (e : Word64) : Bool := e.getLsbD 2
def pteX (e : Word64) : Bool := e.getLsbD 3
def pteD (e : Word64) : Bool := e.getLsbD 4
def pteCC (e : Word64) : Nat := (e.extractLsb' 5 2).toNat
def pteCP (e : Word64) : Bool := e.getLsbD 7
def pteLF (e : Word64) : Bool := e.getLsbD 8
def pteP (e : Word64) : Bool := e.getLsbD 9

/-- The lowest address bit that a level's index field covers, its page size as a power of two (R382). -/
def levelShift (lvl : Nat) : Nat := 55 - 13 * lvl

/-- Well-formedness of an entry with V = 1 at a level (R383). -/
def pteOk (e : Word64) (lvl : Nat) : Bool :=
  e.extractLsb' 10 6 == 0 && e.extractLsb' 48 16 == 0 && (pteLF e || e.extractLsb' 1 9 == 0) &&
    (lvl != 3 || pteLF e) && (lvl != 1 || !pteLF e || e.extractLsb' 16 26 == 0) &&
    (lvl != 2 || !pteLF e || e.extractLsb' 16 13 == 0)

/-- The entry an access uses at one level: what memory holds, or a cached copy of it that differs, one choice for a page of an
access (R385, R386). -/
def State.pte (s : State) (ctx lvl vpn node : Nat) (salt : List Nat) : Word64 :=
  let fresh := s.readDw (node + 8 * (vpn % 8192))
  chooseCopy s (1 :: lvl :: vpn :: salt) fresh
    (addAll [] (((s.tlb.filter (fun e => e.ctx == ctx && e.level == lvl && e.vpn == vpn)).map CachedPte.pte).filter (fun x => x != fresh)))

/-- The walk of R382 from level `lvl`, with `k` levels left. -/
def State.walkFrom (s : State) (ctx : Nat) (va : Addr) (salt : List Nat) : Nat → Nat → Nat → Except FaultInfo Leaf
  | 0, _, _ => .error ((flt 0x09 0x05).at va)
  | k + 1, lvl, node =>
    let sz := levelShift lvl
    let e := s.pte ctx lvl (va.toNat / 2 ^ sz) node salt
    if !pteV e then .error ((flt 0x08 (BitVec.ofNat 16 lvl)).at va)
    else if !pteOk e lvl then .error ((flt 0x09 0x05).at va)
    else
      let base := (e.extractLsb' 16 32).toNat * 65536
      if pteLF e then .ok { pa := base / 2 ^ sz * 2 ^ sz + va.toNat % 2 ^ sz, pte := e }
      else s.walkFrom ctx va salt k (lvl + 1) base

/-- Walk: the leaf of a virtual address in a context, after the checks that precede it (R378, R94). -/
def State.walk (s : State) (ctx : Nat) (va : Addr) (salt : List Nat) : Except FaultInfo Leaf :=
  let d := s.ctxDesc ctx salt
  if !d.ok then .error ((flt 0x09 0x0E).at va)
  else if 2 ^ 55 ≤ va.toNat then .error ((flt 0x08 0x04).at va)
  else s.walkFrom ctx va salt 3 1 d.ptr

/-- The entries a walk reads, level by level, with the level and page number of each (R385). -/
def State.walkTrace (s : State) (ctx : Nat) (va : Addr) (salt : List Nat) : Nat → Nat → Nat → List (Nat × Nat × Word64)
  | 0, _, _ => []
  | k + 1, lvl, node =>
    let vpn := va.toNat / 2 ^ levelShift lvl
    let e := s.pte ctx lvl vpn node salt
    if !pteV e || !pteOk e lvl then []
    else (lvl, vpn, e) ::
      (if pteLF e then [] else s.walkTrace ctx va salt k (lvl + 1) ((e.extractLsb' 16 32).toNat * 65536))

/-- Adds an element to a cache that holds at most `cap` of the elements `same`; which of them it replaces is free (R385). -/
def cacheIn {α : Type} [BEq α] (s : State) (l : List α) (same : α → Bool) (cap : Nat) (x : α) : List α :=
  if l.contains x then l
  else
    let g := l.filter same
    if g.length < cap then l ++ [x] else l.erase (g.getD (Config.pick s.tick [90, l.length] % cap) x) ++ [x]

/-- Caches an entry that a walk has read (R385): a leaf in the TLBs of the core and of its gallery, an entry of level 1 or 2 in
the walk caches of the die. A device access, which is no core's, is cached with gallery 0 and die 0. The gallery's 512 sets of 8 ways
hold leaves of every level; the set of one is its page number mod 512 (log entry 82). -/
def State.cachePte (s : State) (core : Option Nat) (ctx : Nat) (x : Nat × Nat × Word64) : State :=
  let e (a : TlbAt) : CachedPte := { held := a, ctx := ctx, level := x.1, vpn := x.2.1, pte := x.2.2 }
  let c := core.getD 0
  let gal : TlbAt := .gallery (c / 8)
  let die : TlbAt := .die (c / 80)
  let t1 := if x.1 ≤ 2 then cacheIn s s.tlb (fun y => y.held == die && y.level == x.1) (if x.1 = 1 then 64 else 1024) (e die) else s.tlb
  if !pteLF x.2.2 then { s with tlb := t1 }
  else
    let t2 := cacheIn s t1 (fun y => y.held == gal && y.vpn % 512 == x.2.1 % 512) 8 (e gal)
    { s with tlb := if core.isSome then cacheIn s t2 (fun y => y.held == .core c) 96 (e (.core c)) else t2 }

/-- Caches what the translations of addresses, each with the salt of its choices, have read (R378, R385). -/
def State.touchAll (s : State) (core : Option Nat) (ctx : Nat) (vas : List (Addr × List Nat)) : State :=
  let seen := vas.map (fun x =>
    let d := s.ctxDesc ctx x.2
    (d, if 2 ^ 55 ≤ x.1.toNat || !d.ok then [] else s.walkTrace ctx x.1 x.2 3 1 d.ptr))
  let s1 := { s with descCache := addAll s.descCache (seen.map (fun x => (ctx, x.1))) }
  (seen.flatMap Prod.snd).foldl (fun u x => u.cachePte core ctx x) s1

/-- Caches what the translation of one address has read. -/
def State.touch (s : State) (core : Option Nat) (ctx : Nat) (va : Addr) (salt : List Nat) : State := s.touchAll core ctx [(va, salt)]

/-! ### Page checks (R222, R230, R233, R384) -/

/-- The kinds of access a page's rights distinguish (R384). -/
inductive AccKind where
  | read
  | write
  | rmw
  | exec
  | deferred
  deriving DecidableEq, Repr

/-- KIND of a fault record (R342). -/
def AccKind.code : AccKind → BitVec 2
  | .read => 0
  | .write => 1
  | .rmw => 1
  | .exec => 2
  | .deferred => 3

/-- The detail of a page that refuses a fetch or a data access. -/
def AccKind.pageDetail : AccKind → BitVec 16
  | .exec => 0x0B
  | _ => 0x00

/-- The leaf rights an access needs (R384). -/
def AccKind.allowed (k : AccKind) (e : Word64) : Bool :=
  match k with
  | .read => pteR e
  | .write => pteW e
  | .rmw => pteR e && pteW e
  | .exec => pteX e
  | .deferred => pteD e && pteW e

/-- Step 7 of R266 at a leaf: the physical range, the deferred and compressed bits, the aperture kind (`red` for
the opcodes of the reduction kind, R353), the rights, the P bit. -/
def pageCheck (k : AccKind) (packed red sys : Bool) (va : Addr) (l : Leaf) : Except FaultInfo Unit := do
  let r := physRegion l.pa
  require (r != .accession && r != .reserved) ((flt 0x09 0x0C).at va)
  require (!(pteD l.pte && pteCP l.pte) && (k != .deferred || pteD l.pte)) ((flt 0x09 0x00).at va)
  require (k != .deferred || r != .host) ((flt 0x09 0x00).at va)
  require (!packed || pteCP l.pte) ((flt 0x09 0x00).at va)
  require (r != .aperture || l.pa.testBit 40 == red) ((flt 0x09 0x07).at va)
  require (k.allowed l.pte) ((flt 0x09 k.pageDetail).at va)
  require (sys || !pteP l.pte) ((flt 0x09 (if k == .exec then 0x0B else 0x0A)).at va)

/-- Translate with the checks of R384: the physical address of an access, or its fault with the kind of R342. -/
def State.translate (s : State) (ctx : Nat) (sys : Bool) (k : AccKind) (va : Addr) (salt : List Nat) : Except FaultInfo Leaf :=
  match s.walk ctx va salt with
  | .error f => .error { f with kind := k.code }
  | .ok l => (pageCheck k false false sys va l).map (fun _ => l)

/-! ### Object entries (R379 to R381) -/

/-- An object-table entry. -/
structure ObjEntry where
  base : Addr
  len : Nat
  v : Bool
  space : Nat
  rd : Bool
  wr : Bool
  df : Bool
  lk : Bool
  cpol : Nat
  layout : Nat
  ok : Bool
  deriving DecidableEq, Repr

/-- The entry that four words hold, with its well-formedness (R379, R380). -/
def objEntry (w0 w1 w2 w3 : Word64) : ObjEntry :=
  let base := w0.extractLsb' 0 55
  let len := (w1.extractLsb' 0 33).toNat
  let space := (w2.extractLsb' 1 3).toNat
  let layout := (w2.extractLsb' 18 2).toNat
  { base := base.setWidth 64, len := len, v := w2.getLsbD 0, space := space,
    rd := w2.getLsbD 8, wr := w2.getLsbD 9, df := w2.getLsbD 10, lk := w2.getLsbD 11,
    cpol := (w2.extractLsb' 16 2).toNat, layout := layout,
    ok := w0.extractLsb' 55 9 == 0 && w1.extractLsb' 33 31 == 0 && w2.extractLsb' 4 4 == 0 && w2.extractLsb' 12 4 == 0 &&
      w2.extractLsb' 20 44 == 0 && w3 == 0 && len ≤ 2 ^ 32 && space ≤ 3 && layout ≤ 1 &&
      base.extractLsb' 0 4 == 0 && base.toNat + len ≤ 2 ^ 55 &&
      (space != 1 || (base == 0 && len ≤ 2 ^ 23)) &&
      (layout != 1 || (space == 0 && base.extractLsb' 0 11 == 0 && !w2.getLsbD 9 && !w2.getLsbD 10)) }

/-- The entry of four words in a list. -/
def objOfWords (ws : List Word64) : ObjEntry := objEntry (ws.getD 0 0) (ws.getD 1 0) (ws.getD 2 0) (ws.getD 3 0)

/-- The virtual address of object entry n (R379). -/
def objVa (objt : Addr) (n : Nat) : Addr := objt + BitVec.ofNat 64 (32 * n)

/-- Where entry n of a context's object table lies (R379, R381): the read needs V only, and its physical range is checked
(R222). A page that is not resident is reported as class 0x08 detail 0x05 (R430). -/
def State.objAt (s : State) (ctx n : Nat) (salt : List Nat) : Except FaultInfo Leaf :=
  let va := objVa (s.ctxDesc ctx salt).objt n
  match s.walk ctx va salt with
  | .error f => .error (if f.replayable then { f with detail := 0x05 } else f)
  | .ok l =>
    match physRegion l.pa with
    | .accession => .error ((flt 0x09 0x0C).at va)
    | .reserved => .error ((flt 0x09 0x0C).at va)
    | _ => .ok l

/-- The step since which the earlier forms of entry n of a context, at a physical address, may be read: that of the last OBJSET there
or TLBINV of it (R381, R393). -/
def State.objSince (s : State) (ctx n pa : Nat) : Nat :=
  max (((s.objWritten.find? (fun e => e.1 == pa)).map Prod.snd).getD 0)
    (((s.objDropped.filter (fun e => e.1 == ctx && e.2.1 ≤ n && n < e.2.2.1)).map (fun e => e.2.2.2)).foldl max 0)

/-- The four words of entry n of a context at a physical address as a miss reads them: the entry as OBJSET last wrote it, and where
plain stores have since changed a word, that word old or new (R381). -/
def State.objRead (s : State) (ctx n pa : Nat) (salt : List Nat) : List Word64 :=
  let old := s.oldCode.filter (fun e => e.sector == pa / 128 && decide (s.objSince ctx n pa < e.ended))
  (List.range 4).map (fun i =>
    let now := s.readDw (pa + 8 * i)
    let was := addAll [] (old.map (fun e => BitVec.ofNat 64 (leNat ((e.bytes.drop (pa % 128 + 8 * i)).take 8))))
    chooseCopy s (3 :: i :: salt) now (was.filter (fun x => x != now)))

/-- The four words of object entry n as a miss reads them (R381). -/
def State.readObj (s : State) (ctx n : Nat) (salt : List Nat) : Except FaultInfo (List Word64) :=
  (s.objAt ctx n salt).map (fun l => s.objRead ctx n l.pa salt)

/-- The words of object entry n that an access of a core uses: what a miss reads, or the core's cached copy where that differs,
which stays in use until it is dropped or replaced (R381, R393). -/
def State.objWords (s : State) (core ctx n : Nat) (salt : List Nat) : Except FaultInfo (List Word64) :=
  let fresh := s.readObj ctx n salt
  let same (ws : List Word64) : Bool :=
    match fresh with
    | .ok x => x == ws
    | .error _ => false
  let stale := ((s.objCache.filter (fun e => e.core == core && e.ctx == ctx && e.n == n)).map CachedObj.words).filter (fun ws => !same ws)
  chooseCopy s (2 :: n :: salt) fresh (stale.map Except.ok)

/-- Caches the object entry an access used, in place of an older copy and within the core's 64 entries, and the translation that
read it (R381, R385). -/
def State.touchObj (s : State) (core ctx n : Nat) (salt : List Nat) : State :=
  match s.objWords core ctx n salt with
  | .error _ => s
  | .ok ws =>
    let rest := s.objCache.filter (fun e => !(e.core == core && e.ctx == ctx && e.n == n))
    { s.touch (some core) ctx (objVa (s.ctxDesc ctx salt).objt n) salt with
      objCache := cacheIn s rest (fun e => e.core == core) 64 { core := core, ctx := ctx, n := n, words := ws } }

/-- The right an access needs of its object entry (R380). -/
def AccKind.objRight (k : AccKind) (e : ObjEntry) : Bool :=
  match k with
  | .read => e.rd
  | .write => e.wr
  | .rmw => e.rd && e.wr
  | .exec => false
  | .deferred => e.df

/-- Steps 1 to 3 of R266. `spaces` are the spaces the opcode accepts. -/
def State.objCheck (s : State) (core ctx n : Nat) (spaces : List Nat) (k : AccKind) (salt : List Nat) : Except FaultInfo ObjEntry := do
  let ws ← s.objWords core ctx n salt
  let e := objOfWords ws
  require e.v (flt 0x09 0x03)
  require e.ok (flt 0x09 0x02)
  require (spaces.contains e.space) (flt 0x09 0x0F)
  require (k.objRight e) (flt 0x09 0x01)
  .ok e

end Sys2Proof.Machine
end

