-- ==== Sys2Proof/Machine/Access.lean ====
section
/-!
DEFINITION. Resolving the addresses of an instruction's lanes (spec 11 R265, R266; spec 09 R207, R211,
R216, R230 to R232; spec 14 R352, R353) and performing reads and writes at their places (spec 10 R239).
-/
namespace Sys2Proof.Machine

/-- A lane's access after its checks: lane, virtual address, the addresses translated for it, leaf entry and place. -/
structure LaneAcc where
  lane : Nat
  va : Addr
  walked : List Addr
  pte : Word64
  loc : Loc
  deriving DecidableEq, Repr

/-- Applies a check to every lane in ascending order; the lowest that fails decides (R266). -/
def eachLane {α β : Type} (f : α → Except FaultInfo β) : List α → Except FaultInfo (List β)
  | [] => .ok []
  | a :: r =>
    match f a with
    | .error e => .error e
    | .ok b => (eachLane f r).map (fun bs => b :: bs)

/-- The device's number in its pod (R450). -/
def State.deviceNo (s : State) : BitVec 6 := s.host.podid.extractLsb' 0 6

/-- Accesses of DRAM wait while the gigabyte region they fall in changes its mode, or its row is repaired (R128, R460).
A region of a stack holds 2^14 row segments of each channel (log entry 40). -/
def State.dramHeld (s : State) (pa : Nat) : Bool :=
  physRegion pa == .dram &&
    (s.vchChange.any (fun c => c.1 == channelOf pa / 32 && c.2.getLsbD (pa / 2 ^ 33)) ||
      s.service.rows.any (fun r => 32 * r.1 + r.2.1 == channelOf pa && r.2.2 == rowOf pa))

/-- Whether a range of memory touches such an address. -/
def State.rangeHeld (s : State) (pa n : Nat) : Bool :=
  !(s.vchChange.isEmpty && s.service.rows.isEmpty) &&
    (List.range ((pa % 64 + n + 63) / 64)).any (fun i => s.dramHeld (pa / 64 * 64 + 64 * i))

/-- A normal access at the home slice. -/
def Via.plain : Via := { loop := false, vault := false, cls := 0 }

/-- The same of cache class `c`. -/
def Via.ofClass (c : Nat) : Via := { Via.plain with cls := c }

/-- A word of a deferred page, which is of class 3 whatever the entries say (R226, R234). -/
def Via.deferred : Via := { loop := false, vault := true, cls := 3 }

/-- The same through the pod aperture of the device itself (R352, R355). -/
def Via.looped (v : Via) : Via := { v with loop := true }

/-- Physical bytes in a normal access. -/
def Loc.phys (pa : Nat) : Loc := .mem .plain pa

/-- Bytes of a deferred page. -/
def Loc.vault (pa : Nat) : Loc := .mem .deferred pa

/-- Physical bytes through the aperture of this device. -/
def Loc.loop (pa : Nat) : Loc := .mem Via.plain.looped pa

/-- The place of a translated address reached as `v` says: this device's memory, or another device's through the aperture. An
aperture address of this device is a loopback; a PHYS outside program DRAM is refused at its home (R352, R355). -/
def State.placeVia (s : State) (v : Via) (pa : Nat) : Loc :=
  if pa < 2 ^ 47 then .mem v pa
  else
    let home := BitVec.ofNat 6 (pa / 2 ^ 41)
    let phys := pa % 2 ^ 40
    if home != s.deviceNo then .remote home phys
    else if physRegion phys == .dram then .mem v.looped phys
    else .lost

/-- The place of a translated address in a normal access. -/
def State.placeOf (s : State) (pa : Nat) : Loc := s.placeVia .plain pa

/-- How an access through a leaf and an object of cache policy `cpol` reaches memory: a deferred page is met in the vault cache (R234),
any other has the larger of the two classes (R226). -/
def Leaf.via (l : Leaf) (cpol : Nat) : Via := if pteD l.pte then .deferred else .ofClass (max (pteCC l.pte) cpol)

/-- The place of an access through a leaf and an object of cache policy `cpol`. -/
def State.placeAt (s : State) (l : Leaf) (cpol : Nat := 0) : Loc := s.placeVia (l.via cpol) l.pa

/-- The physical address of a place in this device's memory. -/
def Loc.pa? : Loc → Option Nat
  | .mem _ pa => some pa
  | _ => none

/-- Whether a place holds words of a deferred page (R261). -/
def Loc.isDeferred : Loc → Bool
  | .mem v _ => v.vault
  | .packed hv _ _ _ _ _ => hv.vault
  | _ => false

/-- The place of a byte range of a MASKPACK chunk, from the leaves of its header and its slot: chunks lie in this device's memory
(R230; a page of another device answers nothing, log entry 83). -/
def State.chunkPlace (s : State) (cpol : Nat) (h d : Leaf) (off : Nat) : Loc :=
  match s.placeAt h cpol, s.placeAt d cpol with
  | .mem hv hp, .mem sv sp => .packed hv (hp / 64 * 64) sv sp off []
  | _, _ => .lost

/-- The ranges of this device's memory, address and length, that an access of `n` bytes at a place reads or writes. -/
def Loc.spans (loc : Loc) (n : Nat) : List (Nat × Nat) :=
  match loc with
  | .mem _ pa => [(pa, n)]
  | .packed _ h _ s _ _ => [(h, 64), (s, 2048)]
  | _ => []

/-- Whether an access at a place waits for DRAM (R128, R460). -/
def State.locHeld (s : State) (loc : Loc) (n : Nat) : Bool := (loc.spans n).any (fun x => s.rangeHeld x.1 x.2)

/-- The core and offset of a place in a scratchpad. -/
def Loc.scratch? : Loc → Option (Nat × Nat)
  | .bank c off => some (c, off)
  | .peer c off => some (c, off)
  | _ => none

/-- A virtual address translated for one lane, and its checks of step 7 kept for later (steps 6 and 7 of R266). -/
def State.laneWalk (s : State) (ctx : Nat) (k : AccKind) (lane : Nat) (va : Addr) : Except FaultInfo Leaf :=
  match s.walk ctx va [] with
  | .error f => .error ({ f with kind := k.code }.onLane lane)
  | .ok l => .ok l

/-- Attaches a lane to a fault. -/
def faultLane {α : Type} (lane : Nat) (r : Except FaultInfo α) : Except FaultInfo α :=
  match r with
  | .error f => .error (f.onLane lane)
  | .ok x => .ok x

/-- Bounds and alignment of lane offsets in an object (steps 4 and 5 of R266). -/
def boundsCheck (e : ObjEntry) (size : Nat) (offs : List (Nat × Int)) : Except FaultInfo Unit := do
  let va (x : Int) : Addr := e.base + BitVec.ofInt 64 x
  let _ ← eachLane (fun (o : Nat × Int) =>
    require (0 ≤ o.2 && o.2 + size ≤ e.len) (((flt 0x07 0x00).at (va o.2)).onLane o.1)) offs
  let _ ← eachLane (fun (o : Nat × Int) =>
    require ((va o.2).toNat % size == 0) (((flt 0x0A 0x00).at (va o.2)).onLane o.1)) offs
  .ok ()

/-- Address and header address of a MASKPACK offset (R230, R231). -/
def packedVas (e : ObjEntry) (x : Nat) : Addr × Addr :=
  let c := x / 2048
  (e.base + BitVec.ofNat 64 (2048 * ((e.len + 2047) / 2048) + 64 * c + 16 * (x % 2048 / 512)),
   e.base + BitVec.ofNat 64 (2048 * c))

/-- Steps 1 to 7 of R266 for the lanes of an access through an object. `offs` pairs each lane, in ascending
order, with its offset x(L); `size` is the access size, `more` a further check of step 7 on the physical address. -/
def State.objLanes (s : State) (core ctx : Nat) (sys : Bool) (n : Nat) (spaces : List Nat) (k : AccKind) (red : Bool)
    (size : Nat) (offs : List (Nat × Int)) (more : Nat → Option FaultInfo := fun _ => none) :
    Except FaultInfo (ObjEntry × List LaneAcc) := do
  let low := (offs.headD (0, 0)).1
  let e ← faultLane low (s.objCheck core ctx n spaces k [])
  let _ ← boundsCheck e size offs
  let va (x : Int) : Addr := e.base + BitVec.ofInt 64 x
  if e.layout == 1 then
    let ls ← eachLane (fun (o : Nat × Int) => do
      let vs := packedVas e o.2.toNat
      let h ← s.laneWalk ctx k o.1 vs.1
      let d ← s.laneWalk ctx k o.1 vs.2
      Except.ok (o, vs, h, d)) offs
    let as ← eachLane (fun (q : (Nat × Int) × (Addr × Addr) × Leaf × Leaf) => do
      let _ ← faultLane q.1.1 (pageCheck k false red sys q.2.1.1 q.2.2.1)
      let _ ← faultLane q.1.1 (pageCheck k true red sys q.2.1.2 q.2.2.2)
      Except.ok { lane := q.1.1, va := va q.1.2, walked := [q.2.1.1, q.2.1.2], pte := q.2.2.2.pte,
                  loc := s.chunkPlace e.cpol q.2.2.1 q.2.2.2 (q.1.2.toNat % 2048) : LaneAcc }) ls
    Except.ok (e, as)
  else
    let ls ← eachLane (fun (o : Nat × Int) => (s.laneWalk ctx k o.1 (va o.2)).map (fun l => (o, l))) offs
    let as ← eachLane (fun (q : (Nat × Int) × Leaf) => do
      let _ ← faultLane q.1.1 (pageCheck k false red sys (va q.1.2) q.2)
      let _ ← faultLane q.1.1 (match more q.2.pa with
        | some f => Except.error (f.at (va q.1.2))
        | none => Except.ok ())
      Except.ok { lane := q.1.1, va := va q.1.2, walked := [va q.1.2], pte := q.2.pte,
                  loc := if red then Loc.phys q.2.pa else s.placeAt q.2 e.cpol : LaneAcc }) ls
    Except.ok (e, as)

/-! ### Scratchpad, gang windows, slices -/

/-- The scratchpad's length in bytes, 65,536 × q (R211): the banks in scratchpad mode, four a quad (R210). -/
def Block.scratchSize (b : Block) : Nat :=
  65536 * (((List.range 48).filter (fun k => Cells.get b.bankMode k == 2)).length / 4)

/-- The bank that holds a scratchpad byte (R211). -/
def bankOf (x : Nat) : Nat := 4 * (x / 65536) + x / 4 % 4

/-- Bounds and alignment of scratchpad offsets (R211, R265). -/
def scratchLanes (b : Block) (core size : Nat) (offs : List (Nat × Int)) : Except FaultInfo (List LaneAcc) := do
  let _ ← eachLane (fun (o : Nat × Int) =>
    require (0 ≤ o.2 && o.2 + size ≤ b.scratchSize) ((flt 0x07 0x01).onLane o.1)) offs
  let _ ← eachLane (fun (o : Nat × Int) => require (o.2.toNat % size == 0) ((flt 0x0A 0x00).onLane o.1)) offs
  .ok (offs.map (fun o => { lane := o.1, va := 0, walked := [], pte := 0, loc := .bank core o.2.toNat }))

/-- The core that runs rank `r` of the gang of a block on core `core` (R25). -/
def gangCore (l : Launch) (core r : Nat) : Nat := core - l.rank + r

/-- The block of rank `r` of the same gang (R216). -/
def State.gangPeer (s : State) (core : Nat) (b : Block) (r : Nat) : Option Block :=
  match s.block (gangCore b.launch core r) with
  | none => none
  | some p =>
    if p.launch.record == b.launch.record && p.launch.ctx == b.launch.ctx && p.launch.gang == b.launch.gang && p.launch.rank == r
    then some p else none

/-- The lanes of a gang-window access (R216). `s` holds the issuing block itself. -/
def State.gangLanes (s : State) (core : Nat) (b : Block) (n : Nat) (k : AccKind) (size : Nat) (offs : List (Nat × Int)) :
    Except FaultInfo (List LaneAcc) := do
  let low := (offs.headD (0, 0)).1
  let e ← faultLane low (s.objCheck core b.launch.ctx n [1] k [])
  let _ ← eachLane (fun (o : Nat × Int) => do
    let va : Addr := BitVec.ofInt 64 o.2
    let bad (d : BitVec 16) : FaultInfo := ((flt 0x07 d).at va).onLane o.1
    let _ ← require (0 ≤ o.2 && o.2 + size ≤ e.len) (bad 0x00)
    let r := o.2.toNat / 2 ^ 20
    let _ ← require (r < b.launch.gsize) (bad 0x02)
    match s.gangPeer core b r with
    | none => Except.error (bad 0x02)
    | some p => require (o.2.toNat % 2 ^ 20 + size ≤ p.scratchSize) (bad 0x01)) offs
  let _ ← eachLane (fun (o : Nat × Int) =>
    require (o.2.toNat % size == 0) (((flt 0x0A 0x00).at (BitVec.ofInt 64 o.2)).onLane o.1)) offs
  .ok (offs.map (fun o =>
    { lane := o.1, va := BitVec.ofInt 64 o.2, walked := [], pte := 0,
      loc := .peer (gangCore b.launch core (o.2.toNat / 2 ^ 20)) (o.2.toNat % 2 ^ 20) }))

/-- The virtual address of byte `off` of a warp's region of its stack object, with the checks of R208 and
the bounds of R207. -/
def State.stackVa (s : State) (core : Nat) (l : Launch) (w : Nat) (k : AccKind) (off size : Nat) : Except FaultInfo Addr := do
  let e ← s.objCheck core l.ctx l.stackObj [3] k []
  let va := e.base + BitVec.ofNat 64 (e.len * (64 * l.block.toNat + w) + off)
  let _ ← require (off + size ≤ e.len) ((flt 0x07 0x03).at va)
  .ok va

/-- The offset of LDP and STP in the stack object for lane offset `o` from 256 on (R207). -/
def stackOffset (lane o : Nat) : Nat := 0x100000 + 128 * ((o - 256) / 4) + 4 * lane + o % 4

/-- The stack object's entry and the lanes of an LDP or STP (R207, R208, R265). -/
def State.privLanes (s : State) (core : Nat) (l : Launch) (w : Nat) (k : AccKind) (offs : List (Nat × Int)) :
    Except FaultInfo (ObjEntry × List LaneAcc) := do
  let far := offs.filter (fun o => 256 ≤ o.2)
  let low := (far.headD (0, 0)).1
  let e ← if far.isEmpty then Except.ok (objEntry 0 0 0 0) else faultLane low (s.objCheck core l.ctx l.stackObj [3] k [])
  let soff (o : Nat × Int) : Nat := stackOffset o.1 o.2.toNat
  let va (o : Nat × Int) : Addr := e.base + BitVec.ofNat 64 (e.len * (64 * l.block.toNat + w) + soff o)
  let _ ← eachLane (fun (o : Nat × Int) => do
    let _ ← require (0 ≤ o.2) ((flt 0x07 0x00).onLane o.1)
    require (o.2 < 256 || soff o + 4 ≤ e.len) (((flt 0x07 0x03).at (va o)).onLane o.1)) offs
  let _ ← eachLane (fun (o : Nat × Int) => require (o.2.toNat % 4 == 0) ((flt 0x0A 0x00).onLane o.1)) offs
  let ls ← eachLane (fun (o : Nat × Int) =>
    if o.2 < 256 then Except.ok (o, none) else (s.laneWalk l.ctx k o.1 (va o)).map (fun x => (o, some x))) offs
  let as ← eachLane (fun (q : (Nat × Int) × Option Leaf) =>
    match q.2 with
    | none => Except.ok { lane := q.1.1, va := 0, walked := [], pte := 0, loc := Loc.slice q.1.1 q.1.2.toNat }
    | some lf => do
      let _ ← faultLane q.1.1 (pageCheck k false false l.sys (va q.1) lf)
      Except.ok { lane := q.1.1, va := va q.1, walked := [va q.1], pte := lf.pte, loc := s.placeAt lf e.cpol : LaneAcc }) ls
  .ok (e, as)

/-! ### Performing accesses at their places -/

/-- Bytes of a table of 8-byte cells such as the slices of a warp: lane L holds bytes 256L on (R205). -/
def sliceKey (lane off : Nat) : Nat := 256 * lane + off

/-- The stored position in its slot of a MASKPACK chunk byte, under the descriptor `map`, `raw`; `none` for a
byte of a granule that is not stored (R232). -/
def packedPos (map : Word64) (raw : Bool) (off : Nat) : Option Nat :=
  let s := off / 512
  let g := off % 512 / 8
  if raw then some off
  else if !map.getLsbD g then none
  else some (512 * s + 8 * ((List.range g).filter (fun i => map.getLsbD i)).length + off % 8)

/-- Whether the four descriptors of a 64-byte header are well formed (R231). -/
def headerOk (h : List Byte) : Bool :=
  (List.range 4).all (fun i =>
    let map : Word64 := BitVec.ofNat 64 (leNat ((h.drop (16 * i)).take 8))
    let d : Word64 := BitVec.ofNat 64 (leNat ((h.drop (16 * i + 8)).take 8))
    let len := (d.extractLsb' 0 16).toNat
    let pop := ((List.range 64).filter (fun g => map.getLsbD g)).length
    d.extractLsb' 17 47 == 0 && (if d.getLsbD 16 then map == 0 && len == 512 else len == 8 * pop))

/-- Bytes of memory as an access that reaches them so reads them (R234). -/
def State.readVia (s : State) (v : Via) (pa n : Nat) : List Byte := if v.vault then Cells.getMany s.mem pa n else s.homeBytes pa n

/-- The header of a chunk: as the access has read it, or now (R232). -/
def State.chunkHeader (s : State) (hv : Via) (hdr : Nat) (seen : List Byte) : List Byte :=
  if seen.isEmpty then s.readVia hv hdr 64 else seen

/-- Whether a place that ECC protects holds an uncorrectable error (R437); words of four bytes (log entry 12). -/
def State.badWord (s : State) (f : Nat → Place) (a n : Nat) : Bool :=
  !s.bad.isEmpty && ((List.range n).any (fun i => s.bad.contains (f ((a + i) / 4))))

/-- Whether a word of memory that a range touches holds an uncorrectable error, in DRAM or in a cache (R437). -/
def State.badMem (s : State) (pa n : Nat) : Bool := s.badWord .memory pa n || s.badWord .cached pa n || s.badWord .vaultCached pa n

/-- Reads MASKPACK bytes; a header that is malformed or holds an uncorrectable error is a fault of the access (R231, R232, R437). -/
def State.readPacked (s : State) (hv : Via) (hdr : Nat) (sv : Via) (slot off n : Nat) (seen : List Byte) : Except FaultInfo (List Byte) :=
  let h := s.chunkHeader hv hdr seen
  let pos (i : Nat) : Option Nat :=
    let sub := (off + i) / 512
    packedPos (BitVec.ofNat 64 (leNat ((h.drop (16 * sub)).take 8))) ((h.getD (16 * sub + 10) 0).getLsbD 0) (off + i)
  if (seen.isEmpty && s.badMem hdr 64) || !headerOk h then .error (flt 0x0E 0x02)
  else if (List.range n).any (fun i => ((pos i).map (fun p => s.badMem (slot + p) 1)).getD false) then .error (flt 0x0E 0x01)
  else .ok ((List.range n).map (fun i =>
    match pos i with
    | none => 0#8
    | some p => (s.readVia sv (slot + p) 1).headD 0))

/-- Reads bytes of a core's scratchpad. -/
def State.readScratch (s : State) (core off n : Nat) : Except FaultInfo (List Byte) :=
  if s.badWord (Place.scratch core) off n then .error (flt 0x0E 0x00)
  else .ok (((s.block core).map (fun b => Cells.getMany b.scratch off n)).getD (List.replicate n 0))

/-- What an access of memory does to the home slices before it is performed: a deferred page's line is written back and leaves its
slice (R234); an uncached access has the line's dirty sectors written back; any other of DRAM leaves its sectors there (R226). -/
def State.visitMem (s : State) (dirty : Bool) (v : Via) (pa n : Nat) : State :=
  if v.vault then (sectorsOf pa n).foldl State.evictLine s
  else if 3 ≤ v.cls then (sectorsOf pa n).foldl (fun u k => u.onLine State.clean k) s
  else s.holdRange v.cls dirty pa n

/-- The same for an access at any place. -/
def State.visit (s : State) (dirty : Bool) (loc : Loc) (n : Nat) : State :=
  match loc with
  | .mem v pa => s.visitMem dirty v pa n
  | .packed hv h sv sl _ _ => (s.visitMem dirty hv h 64).visitMem dirty sv sl 2048
  | _ => s

/-- Reads `n` bytes at a place for warp `w` of core `c` (R239, R437). -/
def State.readLoc (s : State) (c w : Nat) (loc : Loc) (n : Nat) : Except FaultInfo (List Byte) :=
  match loc with
  | .mem v pa => if s.badMem pa n then .error (flt 0x0E (if v.loop then 0x03 else 0x01)) else .ok (s.readVia v pa n)
  | .bank core off => s.readScratch core off n
  | .peer core off => s.readScratch core off n
  | .slice lane off =>
    if s.badWord (Place.slice c w lane) off n then .error (flt 0x0E 0x00)
    else .ok ((((s.block c).bind (fun b => b.warp w)).map (fun x => Cells.getMany x.slices (sliceKey lane off) n)).getD (List.replicate n 0))
  | .packed hv hdr sv slot off seen => s.readPacked hv hdr sv slot off n seen
  | .got x => .ok (leBytes n x)
  | .remote _ _ => .error (flt 0x0E 0x03)
  | .lost => .error (flt 0x0E 0x03)
  | .bad d => .error (flt 0x0E d)

/-- Clears the error marks of words that a write replaces whole (R437). -/
def State.heal (s : State) (f : Nat → Place) (a n : Nat) : State :=
  if s.bad.isEmpty then s
  else { s with bad := s.bad.filter (fun p => !((List.range n).any (fun i => (a + i) % 4 == 0 && i + 4 ≤ n && p == f ((a + i) / 4)))) }

/-- The same of words of memory, wherever their errors are. -/
def State.healMem (s : State) (pa n : Nat) : State := ((s.heal .memory pa n).heal .cached pa n).heal .vaultCached pa n

/-- Updates one warp of one core. -/
def State.mapWarp (s : State) (c w : Nat) (f : Warp → Warp) : State :=
  match s.block c with
  | none => s
  | some b =>
    match b.warp w with
    | none => s
    | some x => s.setBlock c (b.setWarp (f x))

/-- Stores bytes in a core's scratchpad. -/
def State.writeScratch (s : State) (core off : Nat) (bytes : List Byte) : State :=
  match s.block core with
  | none => s
  | some b => (s.heal (Place.scratch core) off bytes.length).setBlock core { b with scratch := Cells.setMany b.scratch off bytes }

/-- A store of bytes to memory, and the error marks of the words it replaces (R226, R234, R437). -/
def State.writeVia (s : State) (v : Via) (pa : Nat) (bytes : List Byte) : State :=
  let s1 := s.healMem pa bytes.length
  if v.vault then (s1.visitMem true v pa bytes.length).putMem pa bytes
  else if 3 ≤ v.cls then (s1.visitMem true v pa bytes.length).writePhys pa bytes v.cls
  else s1.writePhys pa bytes v.cls

/-- Performs a store of bytes at a place for warp `w` of core `c` (R239). A store to another device or to a
refused address leaves nothing here. -/
def State.writeLoc (s : State) (c w : Nat) (loc : Loc) (bytes : List Byte) : State :=
  match loc with
  | .mem v pa => s.writeVia v pa bytes
  | .bank core off => s.writeScratch core off bytes
  | .peer core off => s.writeScratch core off bytes
  | .slice lane off =>
    (s.heal (Place.slice c w lane) off bytes.length).mapWarp c w (fun x => { x with slices := Cells.setMany x.slices (sliceKey lane off) bytes })
  | .packed _ _ _ _ _ _ => s
  | .remote _ _ => s
  | .got _ => s
  | .lost => s
  | .bad _ => s

/-- Whether two ranges share a byte. -/
def spansMeet (a b : Nat × Nat) : Bool := a.1 < b.1 + b.2 && b.1 < a.1 + a.2

/-- Whether two accesses touch a common byte. -/
def Loc.overlaps (a : Loc) (n : Nat) (b : Loc) (m : Nat) : Bool :=
  match a, b with
  | .slice l x, .slice k y => l == k && x < y + m && y < x + n
  | .remote h x, .remote g y => h == g && x < y + m && y < x + n
  | .packed _ _ _ s o _, .packed _ _ _ r q _ => s == r && o < q + m && q < o + n
  | _, _ =>
    (match a.scratch?, b.scratch? with
     | some (c, x), some (d, y) => c == d && x < y + m && y < x + n
     | _, _ => false) ||
      (a.spans n).any (fun x => (b.spans m).any (spansMeet x))

end Sys2Proof.Machine
end

