-- ==== Sys2Proof/Machine/Device.lean ====
section
/-!
DEFINITION. Device accesses of context memory: fault records, enqueues, join decrements, status fields
(spec 13 R324 to R327, R342, R343; spec 18 R505).
-/
namespace Sys2Proof.Machine

/-- A field of a list of bytes as a number. -/
def bytesNat (bs : List Byte) (off n : Nat) : Nat := leNat ((bs.drop off).take n)

/-- A place of context memory that the device accesses: its physical address and how it is reached (R226, R234, R505). -/
structure DevPlace where
  via : Via
  pa : Nat
  deriving DecidableEq, Repr

/-- The number that `n` bytes at offset `off` of a place hold. -/
def State.readAt (s : State) (d : DevPlace) (off n : Nat) : Nat := leNat (s.readVia d.via (d.pa + off) n)

/-- The same of an aligned doubleword. -/
def State.readDwAt (s : State) (d : DevPlace) (off : Nat) : Word64 := BitVec.ofNat 64 (s.readAt d off 8)

/-- Stores bytes at offset `off` of a place. -/
def State.writeAt (s : State) (d : DevPlace) (off : Nat) (bytes : List Byte) : State := s.writeVia d.via (d.pa + off) bytes

/-- The place of a device access of `n` bytes of a context, with the leaf rights of its kind (R505). It waits while its DRAM region
changes mode or its row is repaired (R128, R460). An access of another device's memory is refused (log entry 5). -/
def State.devTranslate (s : State) (ctx : Nat) (sys : Bool) (k : AccKind) (va : Addr) (n : Nat := 64) : Except FaultInfo DevPlace :=
  match s.translate ctx sys k va [100] with
  | .error f => .error f
  | .ok l =>
    match s.placeAt l with
    | .mem v pa => if s.rangeHeld pa n then .error busy else .ok { via := v, pa := pa }
    | _ => .error ((flt 0x09 0x08).at va)

/-- Caches the translation of a device access (R385). -/
def State.devTouch (s : State) (ctx : Nat) (va : Addr) : State := s.touch none ctx va [100]

/-- The 32 bytes of a fault record (R342). -/
def FaultRec.bytes (r : FaultRec) (ctx : Nat) (time : Word64) : List Byte :=
  leBytes 8 (r.va.toNat % 2 ^ 55) ++
    leBytes 8 (r.cls.toNat + 2 ^ 8 * (r.detail.toNat % 256) + 2 ^ 16 * r.src + 2 ^ 24 * r.kind.toNat + 2 ^ 32 * r.block.toNat) ++
    leBytes 4 (r.warp + 2 ^ 8 * ctx + 2 ^ 16 * r.core) ++ leBytes 8 time.toNat ++ leBytes 4 0

/-- A queue control block (R326). -/
structure Qcb where
  base : Addr
  logc : Nat
  head : Nat
  tail : Nat
  nxt : Nat
  ok : Bool
  deriving DecidableEq, Repr

/-- The QCB at a place (R326); `ok` is that the dispensers serve it. -/
def State.readQcb (s : State) (d : DevPlace) : Qcb :=
  let w0 := s.readDwAt d 0
  let w1 := s.readDwAt d 8
  let logc := (w1.extractLsb' 0 5).toNat
  { base := w0, logc := logc, head := s.readAt d 16 4, tail := s.readAt d 20 4, nxt := s.readAt d 24 4,
    ok := w0.extractLsb' 55 9 == 0 && w0.extractLsb' 0 12 == 0 && w1.extractLsb' 5 3 == 0 && w1.extractLsb' 9 7 == 0 &&
      w1.extractLsb' 16 48 == 0 && s.readAt d 28 4 == 0 && 8 ≤ logc && logc ≤ 24 }

/-- The ring of a QCB holds 2^LOGC entries (R327). -/
def Qcb.full (q : Qcb) : Bool := (q.tail + 2 ^ 32 - q.head) % 2 ^ 32 == 2 ^ q.logc

/-- The virtual address of the ring entry that TAIL names, for entries of `n` bytes. -/
def Qcb.entryVa (q : Qcb) (i n : Nat) : Addr := q.base + BitVec.ofNat 64 (n * (i % 2 ^ q.logc))

/-- The virtual address of QCB `k` of a context (R326). -/
def State.qcbVa (s : State) (ctx k : Nat) : Addr := (s.ctxDesc ctx [100]).qcb + BitVec.ofNat 64 (32 * k)

/-- Sets OVF of the QCB at a place. -/
def State.setOvf (s : State) (d : DevPlace) : State := s.writeAt d 9 [BitVec.ofNat 8 (s.readAt d 9 1) ||| 1#8]

/-- The outcome of a device access of context memory: done, refused (dropped, R505), or waiting since the given time. -/
inductive DevRes where
  | done (s : State)
  | refused (s : State)
  | waits (s : State) (since : Word64)

/-- The state after a device access, whatever its outcome. -/
def DevRes.state : DevRes → State
  | .done s => s
  | .refused s => s
  | .waits s _ => s

/-- An access that waits joins the suspended events (R343, R505). -/
def DevRes.orHold (r : DevRes) (e : DevEvent) : State :=
  match r with
  | .done s => s
  | .refused s => s
  | .waits s since => s.holdSince e since

/-- An access of DRAM that waits for its region or row tries again with the next event (R128, R460). -/
def State.waitsDram (s : State) : DevRes := .waits s (s.clock - BitVec.ofNat 64 retryCycles)

/-- Tries to append a fault record to a context's fault queue; where the ring is full or cannot be reached the record
is dropped, and OVF is set where the QCB accepts the write (R327, R342, R343). -/
def State.tryPost (s : State) (ctx : Nat) (sys : Bool) (r : FaultRec) : DevRes :=
  match s.devTranslate ctx sys .rmw (s.qcbVa ctx 8) 32 with
  | .error f => if f.cls == 0 then s.waitsDram else .refused s
  | .ok d =>
    let q := s.readQcb d
    if !q.ok || q.full then .refused (s.setOvf d)
    else
      match s.devTranslate ctx sys .write (q.entryVa q.tail 32) 32 with
      | .error f => if f.cls == 0 then s.waitsDram else .refused (s.setOvf d)
      | .ok e =>
        let s1 := (s.devTouch ctx (s.qcbVa ctx 8)).devTouch ctx (q.entryVa q.tail 32)
        .done ((s1.writeAt e 0 (r.bytes ctx s.clock)).writeAt d 20 (leBytes 4 ((q.tail + 1) % 2 ^ 32)))

/-- Appends a fault record to a context's fault queue. -/
def State.postFault (s : State) (ctx : Nat) (sys : Bool) (r : FaultRec) : State := (s.tryPost ctx sys r).orHold (.post ctx sys r)

/-- A device access that serves no block. -/
def Whose.none : Whose := { block := 0, warp := 0, core := 0 }

/-- A device access for warp `w` of the block on a core. -/
def Launch.whose (l : Launch) (core w : Nat) : Whose := { block := l.block, warp := w, core := core }

/-- The record of a device access that failed (SRC 2, R505), for the block, warp and core it is made for, where there are such
(R342). -/
def devRecord (f : FaultInfo) (va : Addr) (k : AccKind) (who : Whose := .none) : FaultRec :=
  { va := f.va.getD va, cls := f.cls, detail := f.detail, src := 2, kind := if k == .read then 0 else 1, block := who.block,
    warp := who.warp, core := who.core }

/-- The failures of R505 for an access of a context that its page or its region holds back: a page that is not resident posts a
record and leaves the access waiting; a refusal posts a class 0x09 record and drops it. -/
def State.devFails (s : State) (ctx : Nat) (sys : Bool) (f : FaultInfo) (r : FaultRec) : DevRes :=
  if f.cls == 0 then s.waitsDram
  else if f.replayable then .waits (s.postFault ctx sys r) s.clock
  else .refused (s.postFault ctx sys r)

/-- One device write, with the failures of R505. -/
def State.tryDevWrite (s : State) (ctx : Nat) (sys : Bool) (va : Addr) (bytes : List Byte) (who : Whose := .none) : DevRes :=
  match s.devTranslate ctx sys .write va bytes.length with
  | .ok d => .done ((s.devTouch ctx va).writeAt d 0 bytes)
  | .error f => s.devFails ctx sys f (devRecord f va .write who)

/-- A device write that joins the waiting accesses when its page is not resident (R343, R505). -/
def State.devWrite (s : State) (ctx : Nat) (sys : Bool) (va : Addr) (bytes : List Byte) (who : Whose := .none) : State :=
  (s.tryDevWrite ctx sys va bytes who).orHold (.write ctx sys va bytes who)

/-- Whether a party may try: it does not wait, or its wait has lasted 100 µs or met a TLBINV (R343). -/
def State.mayTry (s : State) (p : Party) : Bool :=
  s.devEvents.all (fun e =>
    match e.1 with
    | .party _ q => q != p || s.passed e.2 retryCycles
    | _ => true)

/-- A party tries: its wait is over. -/
def State.trying (s : State) (p : Party) : State :=
  { s with devEvents := s.devEvents.filter (fun e =>
      match e.1 with
      | .party _ q => q != p
      | _ => true) }

/-! ### Record fields (R322, R324) -/

/-- STATUS lies at bytes 60 to 63 of a record, JC at 16 to 19. -/
def statusVa (rcd : Addr) : Addr := rcd + 60

/-- Writes the state code of a record at a place, keeping UNDER and FLT. -/
def State.setCode (s : State) (d : DevPlace) (code : Nat) : State := s.writeAt d 60 [BitVec.ofNat 8 code]

/-- Sets UNDER of the record at a place. -/
def State.setUnder (s : State) (d : DevPlace) : State := s.writeAt d 61 [BitVec.ofNat 8 (s.readAt d 61 1) ||| 1#8]

/-- Sets FLT of a grid's record (R324). -/
def State.tryFlt (s : State) (ctx : Nat) (sys : Bool) (rcd : Addr) (who : Whose) : DevRes :=
  match s.devTranslate ctx sys .rmw (statusVa rcd) 4 with
  | .ok d => .done ((s.devTouch ctx (statusVa rcd)).writeAt d 1 [BitVec.ofNat 8 (s.readAt d 1 1) ||| 2#8])
  | .error f => s.devFails ctx sys f (devRecord f (statusVa rcd) .write who)

/-- Sets FLT, now or when the page becomes resident (R505). -/
def State.setFlt (s : State) (ctx : Nat) (sys : Bool) (rcd : Addr) (who : Whose) : State :=
  (s.tryFlt ctx sys rcd who).orHold (.flt ctx sys rcd who)

/-- Whether a STATUS code behaves as 0x00 for a join decrement (R324, R325). -/
def idleCode (c : Nat) : Bool := c == 0x00 || c == 0x04 || c == 0x10 || c == 0x11 || c == 0x12 || c == 0x14

/-- One enqueue of the record at `rcd`, which lies at `d`, in the queue that its context and priority name: `write` writes the record,
then the entry, TAIL and state 0x02 follow, or state 0x14 and OVF where the ring is full, not served or refused; while a page is not
resident, nothing (R327). -/
def State.tryQueue (s : State) (rcd : Addr) (d : DevPlace) (sys : Bool) (qctx prio : Nat) (write : State → State) : DevRes :=
  let qva := s.qcbVa qctx prio
  match s.devTranslate qctx sys .rmw qva 32 with
  | .error f =>
    match s.devFails qctx sys f (devRecord f qva .write) with
    | .refused s' => .refused ((write s').setCode d 0x14)
    | r => r
  | .ok qd =>
    let q := s.readQcb qd
    if !q.ok || q.full then .refused (((write s).setOvf qd).setCode d 0x14)
    else
      match s.devTranslate qctx sys .write (q.entryVa q.tail 8) 8 with
      | .error f =>
        match s.devFails qctx sys f (devRecord f (q.entryVa q.tail 8) .write) with
        | .refused s' => .refused (((write s').setOvf qd).setCode d 0x14)
        | r => r
      | .ok e =>
        let s0 := ((write s).devTouch qctx qva).devTouch qctx (q.entryVa q.tail 8)
        let s1 := (s0.writeAt e 0 (leBytes 8 (rcd.toNat % 2 ^ 55))).writeAt qd 20 (leBytes 4 ((q.tail + 1) % 2 ^ 32))
        .done { s1.setCode d 0x02 with queueTimes := s.queueTimes ++ [(qctx, rcd, s.clock, s.tick)] }

/-- An enqueue of the record at virtual address `rcd` of context `ctx` (R327). -/
def State.tryEnqueue (s : State) (ctx : Nat) (sys : Bool) (rcd : Addr) : DevRes :=
  match s.devTranslate ctx sys .rmw rcd with
  | .error f => s.devFails ctx sys f (devRecord f rcd .write)
  | .ok d => (s.devTouch ctx rcd).tryQueue rcd d sys (s.readAt d 29 1 % 64) (s.readAt d 30 1 % 8) id

/-- An enqueue, now or when its pages become resident (R327, R343). -/
def State.enqueue (s : State) (ctx : Nat) (sys : Bool) (rcd : Addr) : State := (s.tryEnqueue ctx sys rcd).orHold (.enqueue ctx sys rcd)

/-- A join decrement by `n` of the record at a place, with virtual address `rcd` (R325). -/
def State.joinAt (s : State) (ctx : Nat) (sys : Bool) (rcd : Addr) (d : DevPlace) (n : Nat) : State :=
  let code := s.readAt d 60 1
  let jc := s.readAt d 16 4
  if code == 0x01 || idleCode code then
    let s1 := s.writeAt d 16 (leBytes 4 (jc - n))
    let s2 := if jc < n then s1.setUnder d else s1
    if jc - n == 0 && jc != 0 then
      if code == 0x01 then s2.enqueue ctx sys rcd else s2.setCode d 0x05
    else s2
  else s.setUnder d

/-- A join decrement made by the device rather than by JOIN (R325, R331, R343). -/
def State.tryJoin (s : State) (ctx : Nat) (sys : Bool) (rcd : Addr) (n : Nat) : DevRes :=
  match s.devTranslate ctx sys .rmw rcd with
  | .ok d => .done ((s.devTouch ctx rcd).joinAt ctx sys rcd d n)
  | .error f => s.devFails ctx sys f (devRecord f rcd .write)

/-- A device join decrement, now or when its page becomes resident (R343). -/
def State.devJoin (s : State) (ctx : Nat) (sys : Bool) (rcd : Addr) (n : Nat) : State :=
  (s.tryJoin ctx sys rcd n).orHold (.joinDec ctx sys rcd n)

end Sys2Proof.Machine
end

