-- ==== Sys2Proof/Machine/Registers.lean ====
section
/-!
DEFINITION. The registers, predicates and handles that an instruction reads and writes, and those that an operation under way still
holds (spec 04 R89 to R96; spec 08 R193; spec 12 R304, R305).
-/
namespace Sys2Proof.Machine

/-- How many of an instruction's register groups, the first ones, are only written. -/
def destGroups : Instr → Nat
  | .vmad _ | .vdot2s _ | .ffma _ | .pkfma _ | .vcmp _ | .fcmp _ | .brx _ | .callx _ | .retv _ | .pset _ | .vreduce _ => 0
  | .st _ | .stp _ | .sts _ | .stg _ | .fput _ | .ldu _ | .stu _ | .pref _ | .spadd _ | .atomc _ | .atomx _ => 0
  | .rwlrd _ | .rwlwr _ | .rwlup _ | .rwlrel _ | .cpy _ | .cpyg _ | .dst _ | .tsetrow _ | .collpush _ | .netst _ | .xcrc _ => 0
  | .atom f | .atoms f => if f.sub.getLsbD 0 then 1 else 0
  | _ => 1

/-- Scalar registers of a form H instruction that are read. -/
def readsH (f : FormH) (d : Bool) : List Nat := (if d then [f.sd] else []) ++ [f.sa, f.sb]

/-- The scalar registers an instruction reads. -/
def readsS : Instr → List Nat
  | .sadd f | .ssub f | .smul f | .smulh f | .sdiv f | .srem f | .sand f | .sor f | .sxor f | .sshl f | .sshr f
  | .ssra f | .smin f | .smax f | .scmp f | .ssel f | .saddr f | .sbfe f => [f.a.toNat, f.b.toNat]
  | .sbfi f => [f.d.toNat, f.a.toNat, f.b.toNat]
  | .smov f | .sclz f | .spopc f | .br f => [f.a.toNat]
  | .loop f => [f.d.toNat]
  | .vadd f | .vsub f | .vmul f | .vmulh f | .vmad f | .vmin f | .vmax f | .vand f | .vor f | .vxor f | .vshl f
  | .vshr f | .vsra f | .vsrar f | .vadds f | .vsubs f | .vdot2s f | .vcmp f | .vbfe f | .fadd f | .fsub f | .fmul f
  | .ffma f | .fmin f | .fmax f | .fcmp f | .pkadd f | .pkfma f | .brx f | .callx f | .retv f | .vslide f | .vshuf f
  | .vbcast f | .vlane f => if f.bs == 1 then [f.b.toNat % 64] else []
  | .pset f => if f.var == 1 then [f.a.toNat % 64] else []
  | .vmov f => if f.sel == 1 then [f.a.toNat % 64] else []
  | .stu f => [f.data.toNat % 64]
  | .xcvt f => [f.obj.toNat]
  | .barinit f | .barwait f | .tld f | .tst f | .tdrain f | .tlbinvVa f | .tlbinvAll f | .tlbinvObj f => readsH f true
  | .cctlIfetch f | .cctlFlush f | .cctlWb f | .bankcfg f | .thand f | .ttake f | .tcvt f | .tquant f | .tgetrow f
  | .tsetrow f | .barenrol f | .bararrive f | .barexpect f | .stamptry f | .stampset f | .perfCtr f | .perfMcfg f
  | .perfMrd f | .perfMclr f | .spawn f | .launch f | .join f | .qdepth f | .park f | .collwaitStat f | .collgrp f
  | .objset f | .objsetClr f | .objget f | .rwload f | .csr f => readsH f false
  | _ => []

/-- The scalar registers an instruction may write. -/
def writesS : Instr → List Nat
  | .sadd f | .ssub f | .smul f | .smulh f | .sdiv f | .srem f | .sand f | .sor f | .sxor f | .sshl f | .sshr f
  | .ssra f | .smin f | .smax f | .ssel f | .saddr f | .sbfe f | .sbfi f | .smov f | .sclz f | .spopc f | .sli f
  | .sget f | .getpc f | .loop f | .feat f => [f.d.toNat]
  | .vreduce f => if f.var == 1 then [f.d.toNat % 64] else []
  | .vote f => if f.var == 2 then [f.d.toNat % 64] else []
  | .xtopk f => [f.obj.toNat]
  | .ldu f => [f.data.toNat % 64]
  | .bararrive f | .barexpect f | .commit f | .collwait f | .collwaitStat f | .launch f | .spawn f | .join f | .qdepth f
  | .objget f | .csr f | .perfCtr f | .perfMrd f => [f.sd]
  | _ => []

/-- The predicates an instruction reads, its clause guard apart. -/
def readsP : Instr → List Nat
  | .bra f | .call f => [f.pred.toNat]
  | .br f => [(f.fn.extractLsb' 0 3).toNat]
  | .ssel f => [(f.fn.extractLsb' 0 3).toNat]
  | .vsel f => [(f.var ++ f.bs).toNat]
  | .vote f => [(f.a.extractLsb' 0 3).toNat]
  | .pmov f => [(f.a.extractLsb' 0 3).toNat, (f.b.extractLsb' 0 3).toNat]
  | _ => []

/-- The registers of a group. -/
def grpRegs (g : Grp) : List Nat := (List.range g.2).map (fun i => g.1 + i)

/-- The vector registers an instruction reads. -/
def readsV (i : Instr) : List Nat := (i.groups.drop (destGroups i)).flatMap grpRegs

/-- The register groups an instruction writes. -/
def writtenGroups : Instr → List Grp
  | .vcmp _ | .fcmp _ | .brx _ | .callx _ | .retv _ | .pset _ => []
  | .st _ | .stp _ | .sts _ | .stg _ | .fput _ | .ldu _ | .stu _ | .pref _ | .spadd _ => []
  | .rwlrd _ | .rwlwr _ | .rwlup _ | .rwlrel _ | .cpy _ | .cpyg _ | .dst _ | .tsetrow _ | .collpush _ | .netst _ => []
  | .atom f | .atoms f => if f.sub.getLsbD 0 then [(f.d.toNat, typWords f.typ)] else []
  | .vreduce f => if f.var == 0 then [(f.d.toNat, 1)] else []
  | .xsort f => (f.d.toNat, 1) :: (if f.x.getLsbD 7 then [((f.x.extractLsb' 0 7).toNat, 1)] else [])
  | i => i.groups.take 1

/-- The vector registers an instruction writes. -/
def writesV (i : Instr) : List Nat := (writtenGroups i).flatMap grpRegs

/-- The predicates an instruction writes. -/
def writesP : Instr → List Nat
  | .scmp f => [(f.d.extractLsb' 0 3).toNat]
  | .vcmp f | .fcmp f | .pset f | .pmov f => [(f.d.extractLsb' 0 3).toNat]
  | .vote f => if f.var == 2 then [] else [(f.d.extractLsb' 0 3).toNat]
  | .rwlrd f | .rwlwr f | .rwlup f => [(f.sub.extractLsb' 0 3).toNat]
  | .barwait f => if f.fn.getLsbD 1 then [(f.fn.extractLsb' 2 3).toNat] else []
  | .stamptry f => [(f.fn.extractLsb' 0 3).toNat]
  | _ => []

/-- Handle h's map entry. -/
def Block.handle (b : Block) (h : Nat) : HandleEntry := b.handles.getD h .zero

/-- The active plane of the array (R308). -/
def ArrayRec.active (a : ArrayRec) : Plane := if a.act then a.p1 else a.p0

/-- The shadow plane. -/
def ArrayRec.shadow (a : ArrayRec) : Plane := if a.act then a.p0 else a.p1

/-- Stored bytes of a row (R296). -/
def HandleEntry.rowBytes (e : HandleEntry) : Nat := if e.acc then 256 else 16 * (e.rb + 1)

/-- Elements of a row: K (R296). -/
def HandleEntry.k (e : HandleEntry) : Nat := if e.fmt == 5 then 128 else e.rowBytes * 8 / fmtBits e.fmt

/-- Whether a TMMA takes a pair of activation handles under the active plane (R311). -/
def Block.pairMode (b : Block) (f : FormF) : Bool :=
  let ea := b.handle f.ha.toNat
  b.array.active.valid && !ea.acc && ea.k == 64 && b.array.active.k == 128

/-- The handles a tile instruction writes, a pair's second apart, and those it reads (R304); the second activation of a pair is read
in pair mode only (`pairMode`). -/
def tileHandles : Instr → List Nat × List Nat
  | .talloc f | .tfree f | .tzero f => ([f.hd.toNat], [])
  | .thand f | .ttake f | .tld f | .tsetrow f | .tcvt f => ([(f.fn.extractLsb' 0 5).toNat], [])
  | .tquant f =>
    let h := (f.fn.extractLsb' 0 5).toNat
    (if f.fn.getLsbD 5 then [h, h + 1] else [h], [])
  | .tst f | .tgetrow f | .tdrain f => ([], [(f.fn.extractLsb' 0 5).toNat])
  | .tldw f => ([], [f.ha.toNat])
  | .tmma f => ([f.hd.toNat], [f.ha.toNat, f.hb.toNat])
  | .tmmac f => ([f.hd.toNat], (List.range ((f.hb.extractLsb' 0 3).toNat + 1)).map (fun r => f.ha.toNat + r))
  | .tscale f | .tadd f | .tmul f => ([f.hd.toNat], [f.ha.toNat, f.hb.toNat])
  | .ttrans f | .tred f | .tabsmax f => ([f.hd.toNat], [f.ha.toNat])
  | _ => ([], [])

/-- Whether a register is the destination of an outstanding load. -/
def LoadDst.hits (d : LoadDst) (vs ss : List Nat) : Bool :=
  match d with
  | .v r n => vs.any (fun x => r ≤ x && x < r + n)
  | .s r => ss.contains r

/-- The handle that a TMMA reads besides: that of its second activation (R311). -/
def Block.pairHandle (b : Block) : Instr → List Nat
  | .tmma f => if b.pairMode f then [f.ha.toNat + 1] else []
  | _ => []

/-- What an operation under way holds against later instructions: vector registers, scalar registers, predicates and handles that
it still writes, and vector registers that it still reads. -/
structure Holds where
  wv : List Nat
  ws : List Nat
  wp : List Nat
  wh : List Nat
  rv : List Nat
  deriving DecidableEq, Repr

/-- Nothing is held. -/
def Holds.none : Holds := { wv := [], ws := [], wp := [], wh := [], rv := [] }

/-- What an operation under way holds (R193, R305): a tile instruction the handles it writes, since its sources were read as it
issued; a transform instruction its sources until the pipe accepts it. An atomic that delivers nothing any more holds nothing (R38). -/
def Op.holds (o : Op) : Holds :=
  match o.body with
  | .atomic _ eff _ _ => if eff == 0 then .none else { Holds.none with wv := writesV o.instr, wp := writesP o.instr }
  | .tile .. => { Holds.none with wh := (tileHandles o.instr).1 }
  | .chain .. => { Holds.none with wh := (tileHandles o.instr).1 }
  | .xqueued .. => { Holds.none with wv := writesV o.instr, ws := writesS o.instr, rv := readsV o.instr }
  | .xaccepted .. => { Holds.none with wv := writesV o.instr, ws := writesS o.instr }
  | .fabric .. => { Holds.none with wv := writesV o.instr }

/-- Two lists share an element. -/
def meets (a b : List Nat) : Bool := a.any b.contains

end Sys2Proof.Machine
end

