-- ==== Sys2Proof/Machine/Splits.lean ====
section
/-!
DEFINITION. The split ring, the return stack and the target check of a warp (spec 02 R27 to R31; spec 06
R121; spec 07 R142, R143, R151, R155).
-/
namespace Sys2Proof.Machine

/-! ### Accesses of the warp that come before -/

/-- Whether an access at a place is still to be performed. -/
def Loc.pending : Loc → Bool
  | .got _ => false
  | .lost => false
  | .bad _ => false
  | _ => true

/-- Whether a lane still waits to be performed. -/
def LanePlace.pending (p : LanePlace) : Bool := p.loc.pending

/-- The lanes of an operation under way that read or write memory, with the size of each. -/
def Op.lanes (o : Op) : List (Loc × Nat) :=
  match o.body with
  | .atomic size _ ps _ => (ps.filter LanePlace.pending).map (fun p => (p.loc, size))
  | .tile _ _ _ todo _ => (todo.filter (fun p => p.loc.pending)).map (fun p => (p.loc, p.size))
  | .fabric false _ words ps _ => (ps.filter LanePlace.pending).map (fun p => (p.loc, 4 * words))
  | _ => []

/-- Whether the warp has stored to a place and the store is not yet performed. -/
def Warp.ownStores (w : Warp) (loc : Loc) (n : Nat) : Bool :=
  w.buf.any (fun e =>
    match e with
    | .store o => o.loc.overlaps o.bytes.length loc n
    | .fence => false)

/-- Whether the warp has an access of a place under way: a load, an atomic, a part of a TLD (R241). -/
def Warp.ownReads (w : Warp) (loc : Loc) (n : Nat) : Bool :=
  w.loads.any (fun ld => ld.lanes.any (fun p => p.pending && p.loc.overlaps ld.size loc n)) ||
    w.ops.any (fun o => o.lanes.any (fun x => x.1.overlaps x.2 loc n))

/-- An access that the hardware makes for the warp's stacks waits for the warp's own accesses of the place (R241), and while its
DRAM region changes mode (R128). -/
def View.stackReady (t : View) (loc : Loc) (n : Nat) : Except FaultInfo Unit :=
  require (!(t.w.ownStores loc n || t.w.ownReads loc n || t.dev.locHeld loc n)) busy

/-- Every load, store, atomic and tile load of the warp has been performed. -/
def Warp.quiet (w : Warp) : Bool := w.loads.isEmpty && w.buf.isEmpty && w.ops.all (fun o => o.lanes.isEmpty)

/-! ### The ring (R28 to R31) -/

/-- The position of the next ready split in ring order from `start` on, cyclically. -/
def nextReady (ring : List Split) (start : Nat) : Option Nat :=
  ((List.range ring.length).map (fun k => (start + k) % ring.length)).find?
    (fun j => (ring[j]?.map (fun sp => sp.st == .ready)).getD false)

/-- Makes the split at position `j` run. One in the split stack is first rotated to position 3 (R30). -/
def runAt (ring : List Split) (j : Nat) : List Split :=
  (if 3 < j then ring.drop (j - 3) ++ ring.take (j - 3) else ring).modify (min j 3) (fun sp => { sp with st := .running })

/-- Makes the next ready split from `start` on run; unchanged when none is ready. -/
def runNext (ring : List Split) (start : Nat) : List Split :=
  match nextReady ring start with
  | none => ring
  | some j => runAt ring j

/-- The position of the running split. -/
def runIdx (ring : List Split) : Nat := ring.findIdx (fun sp => sp.st == .running)

/-- A switch point (R30): the running split becomes ready and the next ready one runs. -/
def switchRing (ring : List Split) : List Split :=
  runNext (ring.map (fun sp => if sp.st == .running then { sp with st := .ready } else sp)) (runIdx ring + 1)

/-- Replaces the running split by groups in order (R29); the first runs unless it is held. Empty groups are
left out. -/
def replaceRunning (ring : List Split) (groups : List Split) : List Split :=
  let i := runIdx ring
  let gs := groups.filter (fun g => g.mask != 0)
  match gs with
  | [] => runNext (ring.take i ++ ring.drop (i + 1)) i
  | g :: r =>
    if g.st == .ready then ring.take i ++ { g with st := .running } :: r ++ ring.drop (i + 1)
    else runNext (ring.take i ++ gs ++ ring.drop (i + 1)) i

/-- Puts one split at the lowest position of those that `p` selects, and drops the others. -/
def mergeAt (ring : List Split) (p : Split → Bool) (m : Split) : List Split :=
  let i := ring.findIdx p
  (ring.take i) ++ m :: (ring.drop (i + 1)).filter (fun sp => !p sp)

/-- The union of the masks that `p` selects. -/
def unionMask (ring : List Split) (p : Split → Bool) : LaneMask :=
  (ring.filter p).foldl (fun m sp => m ||| sp.mask) 0

/-- The running split arrives at its header and merges with the ready and held splits of the same pc (R31). -/
def arriveRing (ring : List Split) : List Split :=
  match ring.find? (fun sp => sp.st == .running) with
  | none => ring
  | some r =>
    let p (sp : Split) : Bool := sp.pc == r.pc
    if (ring.filter p).length ≤ 1 then ring
    else mergeAt ring p { pc := r.pc, mask := unionMask ring p, st := .running }

/-- A store to the warp's stack object at a place (R28, R121), made as the warp issues; watched copies are invalidated (R225). One to
another device leaves the model (log entry 5). -/
def View.writeStack (t : View) (loc : Loc) (bytes : List Byte) : View :=
  match loc with
  | .mem v pa =>
    let secs := sectorsOf pa bytes.length
    { t with
      dev := t.dev.writeVia v pa bytes
      blk := { t.blk with warps := t.blk.warps.map (fun w => w.invalidate secs) }
      w := t.w.invalidate secs }
  | _ => t

/-- The stack object's entry is cached by an access of the warp's stacks, and the translations of its addresses (R381, R385). -/
def View.touchStack (t : View) (vas : List Addr) : View :=
  let l := t.blk.launch
  { t with dev := (t.dev.touchObj t.core l.ctx l.stackObj []).touchAll (some t.core) l.ctx (vas.map (fun va => (va, [200]))) }

/-- A stack access through a leaf uses the cache policy of the stack object (R226). -/
def View.stackPlace (t : View) (l : Leaf) : Loc :=
  t.dev.placeAt l (match t.dev.objWords t.core t.blk.launch.ctx t.blk.launch.stackObj [] with
    | .ok ws => (objOfWords ws).cpol
    | .error _ => 0)

/-- The number of a state in a saved entry (R27). -/
def SplitState.code : SplitState → Nat
  | .ready => 1
  | .running => 2
  | .held _ => 3

/-- The saved form of a split entry (R27). -/
def Split.bytes (sp : Split) : List Byte := leBytes 8 sp.pc.toNat ++ leBytes 4 sp.mask.toNat ++ leBytes 4 sp.st.code

/-- Offset of a split-stack frame in the warp's region of its stack object (R432). -/
def frameOff (f : Bool) : Nat := if f then 0xFFA00 else 0xFF800

/-- The places of the sixteen-byte entries of a split-stack frame, with their addresses: every page of the frame is checked
(R28, R505). -/
def View.frameLeaves (t : View) (f : Bool) (n : Nat) : Except FaultInfo (List (Addr × Leaf)) := do
  let va ← t.dev.stackVa t.core t.blk.launch t.w.num .rmw (frameOff f) 512
  let ls ← eachLane (fun (i : Nat) =>
    (t.dev.translate t.blk.launch.ctx t.blk.launch.sys .rmw (va + BitVec.ofNat 64 (16 * i)) [200]).map
      (fun l => (va + BitVec.ofNat 64 (16 * i), l))) (List.range 32)
  .ok (ls.take n)

/-- Installs a new ring. When entries move to or from the split stack the frame is accessed through the stack
object, which may fault (R28, R35); the stack is kept top first (log entry 13). -/
def View.putRing (t : View) (ring : List Split) : Except FaultInfo View :=
  if ring.drop 4 == t.w.ring.drop 4 then .ok (t.setW { t.w with ring := ring })
  else
    let f := !t.w.ckpt.frame
    match t.frameLeaves f (ring.drop 4).length with
    | .error e => .error e
    | .ok ls =>
      match eachLane (fun (x : Addr × Leaf) => t.stackReady (t.stackPlace x.2) 16) ls with
      | .error e => .error e
      | .ok _ =>
        let t1 := (ls.zip (ring.drop 4)).foldl (fun (u : View) x => u.writeStack (t.stackPlace x.1.2) x.2.bytes) (t.touchStack (ls.map Prod.fst))
        .ok (t1.setW { t1.w with ring := ring, frame := f })

/-! ### Code and targets (R78, R143) -/

/-- The grid of a block. -/
def Launch.ofGrid (l : Launch) (g : Grid) : Bool := g.record == l.record && g.ctx == l.ctx

/-- The earlier forms in which the block may fetch the sector at `pa`: those it had at some time since the block's grid was
enqueued, and that no CCTL.ifetch has dropped (R104). -/
def State.codeForms (s : State) (l : Launch) (pa : Nat) : List OldCode :=
  match s.grids.find? l.ofGrid with
  | none => []
  | some g => s.oldCode.filter (fun e => e.sector == pa / 128 && decide (g.enqueued < e.ended))

/-- A word read through the code path: as memory holds it, or in an earlier form of its sector; which is free, one choice for each
sector of a fetch (R104). It waits while its DRAM region changes mode (R128). -/
def State.codeWord (s : State) (core : Nat) (l : Launch) (va : Addr) : Except FaultInfo Word32 := do
  let leaf ← s.translate l.ctx l.sys .exec va [300]
  let loc := s.placeAt leaf
  let _ ← require (!s.locHeld loc 4) busy
  let forms := ((loc.pa?).map (s.codeForms l)).getD []
  let old := match forms with
    | [] => none
    | _ => forms[Config.pick s.tick [301, core, leaf.pa / 128] % (forms.length + 1)]?
  match old with
  | some e => .ok (BitVec.ofNat 32 (leNat ((e.bytes.drop (leaf.pa % 128)).take 4)))
  | none => (s.readLoc core 0 loc 4).map (fun bs => BitVec.ofNat 32 (leNat bs))

/-- A header's tag is 0xF (R79). -/
def isHeader (w : Word32) : Bool := w.extractLsb' 28 4 == 0xF

/-- The checks of a target, in the order of R143. -/
def View.checkTarget (t : View) (va : Addr) : Except FaultInfo Unit := do
  let _ ← require (va.toNat < 2 ^ 55) (flt 0x08 0x04)
  let _ ← require (va.toNat % 4 == 0) (flt 0x0A 0x00)
  let w ← t.dev.codeWord t.core t.blk.launch va
  require (isHeader w) (flt 0x03 0x05)

/-! ### The return stack (R121) -/

/-- The saved form of a return entry (R121). -/
def RetEntry.bytes (e : RetEntry) : List Byte := leBytes 8 e.addr.toNat ++ leBytes 4 e.mask.toNat ++ leBytes 4 0

/-- The return entry that sixteen bytes hold. -/
def RetEntry.ofBytes (bs : List Byte) : RetEntry :=
  { addr := BitVec.ofNat 64 (bytesNat bs 0 8), mask := BitVec.ofNat 32 (bytesNat bs 8 4) }

/-- The physical place of the spill of position `j ≥ 128`, with its address (R121). -/
def View.spillLeaf (t : View) (k : AccKind) (j : Nat) : Except FaultInfo (Addr × Leaf) := do
  let va ← t.dev.stackVa t.core t.blk.launch t.w.num k (16 * (j - 128)) 16
  let l ← t.dev.translate t.blk.launch.ctx t.blk.launch.sys k va [200]
  .ok (va, l)

/-- Byte of the slice in which position `j < 128` is spilled (R121). -/
def spillKey (j : Nat) : Nat := sliceKey (j / 4) (192 + 16 * (j % 4))

/-- The place of that spill. -/
def spillSlice (j : Nat) : Loc := .slice (j / 4) (192 + 16 * (j % 4))

/-- The warp in view after sixteen bytes of one of its slices have been written: their error marks are cleared (R437). -/
def View.healSlice (t : View) (lane off : Nat) (w : Warp) : View :=
  { t.setW w with dev := t.dev.heal (Place.slice t.core w.num lane) off 16 }

/-- Pushes a return entry; the oldest hardware entry is spilled when a seventeenth is needed (R121, R149).
The hardware entries are kept newest first. -/
def View.pushRet (t : View) (e : RetEntry) : Except FaultInfo View :=
  let w := t.w
  if w.depth = 65535 then .error (flt 0x07 0x05)
  else if w.depth < 16 then .ok (t.setW { w with depth := w.depth + 1, hw := e :: w.hw })
  else
    let old := w.hw.getD 15 { addr := 0, mask := 0 }
    let j := w.depth - 16
    let w' : Warp := { w with depth := w.depth + 1, hw := e :: w.hw.take 15 }
    if j < 128 then
      (t.stackReady (spillSlice j) 16).map (fun _ => t.healSlice (j / 4) (192 + 16 * (j % 4)) { w' with slices := Cells.setMany w.slices (spillKey j) old.bytes })
    else
      match t.spillLeaf .write j with
      | .error f => .error f
      | .ok (va, l) =>
        match t.stackReady (t.stackPlace l) 16 with
        | .error f => .error f
        | .ok _ => .ok (((t.setW w').touchStack [va]).writeStack (t.stackPlace l) old.bytes)

/-- Removes the top return entry; above a depth of 16 the entry below the hardware ones comes back from the
spill area (R121), where it may meet an uncorrectable error (R437). -/
def View.popRet (t : View) : Except FaultInfo View :=
  let w := t.w
  let w' : Warp := { w with depth := w.depth - 1, hw := w.hw.tail }
  if w.depth ≤ 16 then .ok (t.setW w')
  else
    let j := w.depth - 17
    if j < 128 then
      (t.stackReady (spillSlice j) 16).bind (fun _ =>
        (require (!t.dev.badWord (Place.slice t.core w.num (j / 4)) (192 + 16 * (j % 4)) 16) (flt 0x0E 0x00)).map (fun _ =>
          t.setW { w' with hw := w'.hw ++ [.ofBytes (Cells.getMany w.slices (spillKey j) 16)] }))
    else
      match t.spillLeaf .read j with
      | .error f => .error f
      | .ok (va, l) =>
        match t.stackReady (t.stackPlace l) 16 with
        | .error f => .error f
        | .ok _ =>
          (t.dev.readLoc t.core w.num (t.stackPlace l) 16).map (fun bs =>
            let t1 := t.touchStack [va]
            { t1.setW { w' with hw := w'.hw ++ [.ofBytes bs] } with dev := t1.dev.visit false (t.stackPlace l) 16 })

/-! ### Settling (R151) -/

/-- Whether a split is held at a RET or RETV. -/
def Split.atReturn (sp : Split) : Bool :=
  match sp.st with
  | .held .ret => true
  | .held (.retv ..) => true
  | _ => false

/-- The target at which a split is held by a RECONV. -/
def Split.reconvTarget (sp : Split) : Option Addr :=
  match sp.st with
  | .held (.reconv a) => some a
  | _ => none

/-- The header at which a split held by a BSYNC goes on. -/
def Split.bsyncResume (sp : Split) : Option Addr :=
  match sp.st with
  | .held (.bsync a) => some a
  | _ => none

/-- The address a lane of a link vector goes to: s(b) + 4 × v(a)[L] mod 2^64 (R147, R151). -/
def Warp.link (w : Warp) (a : BitVec 7) (b : BitVec 6) (signed : Bool) (l : Nat) : Addr :=
  w.rs b.toNat + (if signed then (w.rv a.toNat l).signExtend 64 else (w.rv a.toNat l).setWidth 64) * 4

/-- The targets of the lanes of `q` held at returns, with the address of their RET or RETV (R151, R153). -/
def Warp.returnTargets (w : Warp) (q : LaneMask) (a : Addr) : List (Nat × Addr × Addr) :=
  (lanes q).map (fun l =>
    match w.ring.find? (fun sp => sp.mask.getLsbD l) with
    | none => (l, a, a)
    | some sp =>
      match sp.st with
      | .held (.retv ra rb sg) => (l, w.link ra rb sg l, sp.pc + 4)
      | _ => (l, a, sp.pc + 4))

/-- Whether the link of a RETV that lanes of `q` are held at is still to be written: its release waits for it (R95, R153, R162). -/
def Warp.linkHeld (w : Warp) (q : LaneMask) : Bool :=
  w.ring.any (fun sp => sp.mask &&& q != 0 && (match sp.st with
    | .held (.retv a b _) =>
      w.loads.any (fun ld => ld.dst.hits [a.toNat] [b.toNat]) ||
        w.ops.any (fun o => meets o.holds.wv [a.toNat] || meets o.holds.ws [b.toNat])
    | _ => false))

/-- Lanes with their targets, grouped by equal target in order of the lowest lane (R147). -/
def groupTargets : List (Nat × Addr) → List (Addr × LaneMask)
  | [] => []
  | (l, a) :: r =>
    let gs := groupTargets r
    match gs.find? (fun g => g.1 == a) with
    | none => (a, 1#32 <<< l) :: gs
    | some g => (a, g.2 ||| 1#32 <<< l) :: gs.filter (fun g => g.1 != a)

/-- Returns the lanes `q`, all of which stand at returns, to the top entry (R151). A split that runs keeps running where the new
groups push it, in the split stack too, where sr.split reads its position there: the spec does not say that the ring is then
rotated (R27, R29, R122; log entry 20). -/
def View.release (t : View) (q : LaneMask) (a : Addr) : Except FaultInfo View :=
  let tg := t.w.returnTargets q a
  if t.w.linkHeld q then .error busy
  else match eachLane (fun (x : Nat × Addr × Addr) =>
      match t.checkTarget x.2.1 with
      | .error f => .error { f with addr := some x.2.2 }
      | .ok u => .ok u) tg with
  | .error f => .error f
  | .ok _ =>
    let i := t.w.ring.findIdx (fun sp => sp.mask &&& q != 0)
    let news : List Split := (groupTargets (tg.map (fun x => (x.1, x.2.1)))).map (fun g => { pc := g.1, mask := g.2, st := .ready })
    let cut (r : List Split) : List Split := (r.map (fun sp => { sp with mask := sp.mask &&& ~~~q })).filter (fun sp => sp.mask != 0)
    let before := cut (t.w.ring.take i)
    let ring := before ++ news ++ cut (t.w.ring.drop i)
    let ring' := if t.w.running.isSome then ring else runAt ring before.length
    match t.popRet with
    | .error f => .error f
    | .ok t' => t'.putRing ring'

/-- The procedure Settle of R151, with `k` rounds left. -/
def View.settleRounds (t : View) : Nat → Except FaultInfo View
  | 0 => .ok t
  | k + 1 =>
    let w := t.w
    let top := w.hw.headD { addr := 0, mask := 0 }
    let q := top.mask &&& w.liveLanes
    if w.depth != 0 && q == 0 then
      match t.popRet with
      | .error f => .error f
      | .ok t' => t'.settleRounds k
    else if w.depth != 0 && q &&& ~~~(unionMask w.ring Split.atReturn) == 0 then
      match t.release q top.addr with
      | .error f => .error f
      | .ok t' => t'.settleRounds k
    else
      let targets := w.ring.filterMap Split.reconvTarget
      if w.ring.all (fun sp => sp.st != .ready && sp.st != .running) && !targets.isEmpty then
        let a := targets.foldl (fun m x => if x < m then x else m) (targets.headD 0)
        let p (sp : Split) : Bool := sp.reconvTarget == some a
        let ring := mergeAt w.ring p { pc := a, mask := unionMask w.ring p, st := .ready }
        match t.putRing (runAt ring (w.ring.findIdx p)) with
        | .error f => .error f
        | .ok t' => t'.settleRounds k
      else .ok t

/-- Settle (R151): each round lowers the depth or releases held splits. A warp without lanes settles nothing;
when no split runs, the next ready one does (R27). -/
def View.settle (t : View) : Except FaultInfo View :=
  if t.w.liveLanes == 0 then .ok t
  else
    match t.settleRounds (t.w.depth + 2 * t.w.ring.length + 2) with
    | .error f => .error f
    | .ok t' => if t'.w.running.isSome then .ok t' else t'.putRing (runNext t'.w.ring 0)

/-! ### BSYNC (R155) -/

/-- A warp counts for BSYNC while it is neither terminated nor wholly exited. -/
def Warp.counted (w : Warp) : Bool := w.life == .live && w.liveLanes != 0

/-- A warp has arrived while every live lane is in a split held at some BSYNC. -/
def Warp.arrived (w : Warp) : Bool := w.ring.all (fun sp => sp.bsyncResume.isSome)

/-- Merges splits of equal pc at the lowest of their positions, in at most `k` rounds. -/
def mergeEqual : Nat → List Split → List Split
  | 0, r => r
  | _ + 1, [] => []
  | k + 1, sp :: r =>
    let same (x : Split) : Bool := x.pc == sp.pc
    { sp with mask := sp.mask ||| unionMask r same } :: mergeEqual k (r.filter (fun x => !same x))

/-- The ring of a warp released from BSYNC: its splits are ready after their BSYNC clauses, merged, and one runs (R27, R155).
Which one is not stated: it is the one at the lowest ring position (log entry 20). -/
def Warp.bsyncRing (w : Warp) : List Split :=
  let ready := w.ring.map (fun sp =>
    match sp.bsyncResume with
    | some a => { sp with pc := a, st := .ready }
    | none => sp)
  runNext (mergeEqual ready.length ready) 0

/-- Releases one warp (R155): its ring is installed and it settles; none while its stacks must wait. A fault of the split-stack move
or of settling is met where the warp goes on, at the BSYNC of the split that runs first unless it names its own address (R28, R151;
which of the warp's BSYNCs a fault of the move is at is not stated, log entry 84). -/
def View.bsyncRelease (t : View) : Option View :=
  let r := t.w.bsyncRing
  let back := ((r.find? (fun sp => sp.st == .running)).map (fun sp => sp.pc - 4)).getD 0
  let late (u : View) (f : FaultInfo) : Option View :=
    if f.cls == 0 then none else some (u.setW { u.w with dead := some { f with addr := some (f.addr.getD back) } })
  match t.putRing r with
  | .error f => late (t.setW { t.w with ring := r }) f
  | .ok t1 =>
    match t1.settle with
    | .error f => late t1 f
    | .ok t2 => some t2

/-- Releases warps one after another, all or none. -/
def State.bsyncAll (s : State) (core : Nat) : List Nat → Option State
  | [] => some s
  | n :: r => (((s.viewOf core n).bind View.bsyncRelease).map View.close).bind (fun u => u.bsyncAll core r)

end Sys2Proof.Machine
end

