-- ==== Sys2Proof/Machine/Barrier.lean ====
section
/-!
DEFINITION. Barrier objects, step stamps, histogram monitors and fabric requests as shared operations (spec 17 R410 to R413,
R422, R424, R425, R427; spec 14 R367, R374).
-/
namespace Sys2Proof.Machine

/-- A barrier object (R410). -/
structure BarObj where
  exp : Nat
  pend : Nat
  bal : Word32
  ph : BitVec 4
  sco : BitVec 3
  nt : Bool
  res : BitVec 8
  nrec : BitVec 48
  deriving DecidableEq, Repr

/-- The object that sixteen bytes hold (R410). -/
def BarObj.ofBytes (bs : List Byte) : BarObj :=
  let b8 : BitVec 8 := BitVec.ofNat 8 (bytesNat bs 8 1)
  { exp := bytesNat bs 0 2, pend := bytesNat bs 2 2, bal := BitVec.ofNat 32 (bytesNat bs 4 4),
    ph := b8.extractLsb' 0 4, sco := b8.extractLsb' 4 3, nt := b8.getLsbD 7,
    res := BitVec.ofNat 8 (bytesNat bs 9 1), nrec := BitVec.ofNat 48 (bytesNat bs 10 6) }

/-- The sixteen bytes of an object (R410). -/
def BarObj.bytes (o : BarObj) : List Byte :=
  leBytes 2 o.exp ++ leBytes 2 o.pend ++ leBytes 4 o.bal.toNat ++
    leBytes 1 (o.ph.toNat + 16 * o.sco.toNat + (if o.nt then 128 else 0)) ++ leBytes 1 o.res.toNat ++ leBytes 6 o.nrec.toNat

/-- A phase completes in the same RMW as a change that leaves PEND = 0 and BAL = 0 while EXP ≠ 0 (R412). -/
def BarObj.due (o : BarObj) : Bool := o.exp != 0 && o.pend == 0 && o.bal == 0

/-- The object after its completion, if one is due (R412). -/
def BarObj.settle (o : BarObj) : BarObj := if o.due then { o with ph := o.ph + 1, pend := o.exp, bal := 0 } else o

/-- One RMW on the barrier object at a place, with the phase completion and the notify decrement (R410, R412).
`ctx` is the context that the object serves. -/
def State.rmwBar (s : State) (core w ctx : Nat) (sys : Bool) (loc : Loc) (f : BarObj → BarObj) : State :=
  match s.readLoc core w loc 16 with
  | .error _ => s
  | .ok bs =>
    let o := f (BarObj.ofBytes bs)
    let s1 := s.writeLoc core w loc o.settle.bytes
    if o.due && o.nt then s1.devJoin ctx sys (BitVec.ofNat 64 (64 * o.nrec.toNat)) 1 else s1

/-- Applies a held counter operation at the confirmation of its region (R420, R424, R425). -/
def State.applyHeld (s : State) (core w : Nat) (l : Launch) (h : HeldOp) : State :=
  match h with
  | .expect _ loc b => s.rmwBar core w l.ctx l.sys loc (fun o => if o.exp == 0 then o else { o with bal := o.bal + b })
  | .stamp loc k =>
    match s.readLoc core w loc 8 with
    | .error _ => s
    | .ok bs =>
      if BitVec.ofNat 48 (leNat bs) < k then s.writeLoc core w loc (leBytes 8 (k.toNat + 2 ^ 48 * (l.block.toNat % 2 ^ 16))) else s

/-- An object without an enrolment (R422). -/
def Enrol.drop (e : Enrol) (o : BarObj) : BarObj :=
  let d := if e.phase == o.ph then e.c - e.a else e.c
  { o with exp := o.exp - min e.c o.exp, pend := o.pend - min o.pend d }

/-- Withdraws an enrolment from an object in global memory, with the failures of R505. -/
def State.tryWithdraw (s : State) (ctx : Nat) (sys : Bool) (e : Enrol) (who : Whose) : DevRes :=
  match s.devTranslate ctx sys .rmw e.addr with
  | .ok d => .done ((s.devTouch ctx e.addr).rmwBar 0 0 ctx sys (.mem d.via d.pa) e.drop)
  | .error f => s.devFails ctx sys f (devRecord f e.addr .write who)

/-- Withdraws an enrolment slot from its object when its warp is terminated, or when the object's page becomes resident (R343,
R422). -/
def State.withdraw (s : State) (core w : Nat) (l : Launch) (e : Enrol) : State :=
  if e.g then (s.tryWithdraw l.ctx l.sys e (l.whose core w)).orHold (.withdraw l.ctx l.sys e (l.whose core w))
  else s.rmwBar core w l.ctx l.sys (.bank core e.addr.toNat) e.drop

/-! ### Histogram monitors (R427) -/

/-- The state words after a reset: MIN all ones, the others 0 (R427). -/
def monitorWords : List Word64 := 0xFFFFFFFFFFFFFFFF :: List.replicate 18 0

/-- A monitor that has not been configured. -/
def Monitor.zero : Monitor := { src := 0, en := false, edges := List.replicate 15 0, words := monitorWords, last := 0 }

/-- Monitor `m` of gallery `g`, kept under the number 4 × g + m. -/
def State.monitor (s : State) (g m : Nat) : Monitor := ((s.monitors.find? (fun x => x.1 == 4 * g + m)).map Prod.snd).getD .zero

/-- Replaces a monitor. -/
def State.setMonitor (s : State) (g m : Nat) (x : Monitor) : State :=
  { s with monitors := (4 * g + m, x) :: s.monitors.filter (fun y => y.1 != 4 * g + m) }

/-- Adds a sample to the state words of a monitor (R427). -/
def Monitor.sample (m : Monitor) (value : Nat) : Monitor :=
  let v := min value (2 ^ 32 - 1)
  let bin := (m.edges.filter (fun e => e.toNat ≤ v)).length
  let x : Word64 := BitVec.ofNat 64 v
  let lo := m.words.getD 0 0
  let hi := m.words.getD 1 0
  let w1 := ((m.words.set 0 (if x < lo then x else lo)).set 1 (if hi < x then x else hi)).modify 2 (fun n => n + 1)
  { m with words := w1.modify (3 + bin) (fun n => n + 1) }

/-- The cycles since `since` are a sample of source `src` in gallery `g` (R427). -/
def State.sample (s : State) (g src : Nat) (since : Word64) : State :=
  { s with monitors := s.monitors.map (fun x =>
      if x.1 / 4 == g && x.2.en && x.2.src.toNat == src then (x.1, x.2.sample (s.clock - since).toNat) else x) }

/-! ### Releases toward a scope (R244, R246) -/

/-- Whether two cores run blocks of one gang. -/
def State.gangMates (s : State) (c d : Nat) : Bool :=
  match s.block c, s.block d with
  | some a, some b => a.launch.record == b.launch.record && a.launch.ctx == b.launch.ctx && a.launch.gang == b.launch.gang
  | _, _ => false

/-- Whether an access of an agent of core `core`, its warp `w` or a job, must wait at a place where an agent of its own block or gang
has released something before the events that precede the release (R246; log entry 8). -/
def State.earlyHeld (s : State) (core w : Nat) (loc : Loc) (n : Nat) : Bool :=
  s.early.any (fun e => (e.core == core || (e.gang && s.gangMates e.core core)) && !(e.core == core && e.warp == w) &&
    e.loc.overlaps e.size loc n)

/-- A release store or RMW of a warp is performed before the events that precede it (R246). -/
def State.leads (s : State) (core w seq : Nat) (gang : Bool) (loc : Loc) (n : Nat) : State :=
  { s with early := s.early ++ [{ core := core, warp := w, seq := seq, gang := gang, loc := loc, size := n }] }

/-! ### Fabric requests (R367, R374) -/

/-- Registers a request of a warp; its number is the `nextIdent` before. -/
def State.newRequest (s : State) (core w : Nat) (home : BitVec 6) (k : ReqKind) (drain : Option Nat) (src : Option (Nat × Word64) := none) : State :=
  { s with requests := s.requests ++ [{ ident := s.nextIdent, core := core, warp := w, saved := none, home := home, kind := k, drain := drain, since := s.clock, begun := false, src := src }],
           nextIdent := s.nextIdent + 1 }

/-- Requests that the core awaits at COLLWAIT and WAIT bit [14] (R367, R374). -/
def ReqKind.counted : ReqKind → Bool
  | .load _ => false
  | .atomic _ => false
  | _ => true

/-- The place in program order of the instruction that awaits what a request reads (R373). -/
def ReqKind.reads : ReqKind → Option Nat
  | .push => none
  | .store _ => none
  | .load seq => some seq
  | .netld seq => some seq
  | .pull seq _ => some seq
  | .atomic seq => some seq

/-- Whether a request is one of a warp that a core holds. -/
def FabricReq.isOf (r : FabricReq) (core w : Nat) : Bool := r.core == core && r.warp == w && r.saved.isNone

/-- A warp that is rolled back to `seq` or ends awaits no read from there on: what its reads are answered is dropped (R38,
R436). -/
def State.dropReads (s : State) (core w seq : Nat) : State :=
  { s with requests := s.requests.filter (fun r =>
      !(r.isOf core w && (match r.kind.reads with
        | some k => decide (seq ≤ k)
        | none => false))) }

/-- Whether a NETST of the warp to this device, not yet performed, covers a byte of a place: accesses of one warp to a byte
keep their order (R241, R355). A drain's stores are not ordered so (R255). -/
def State.netHeld (s : State) (core w : Nat) (loc : Loc) (n : Nat) : Bool :=
  (loc.spans n).any (fun x => s.netStores.any (fun p =>
    p.sender == s.deviceNo && s.requests.any (fun r => r.ident == p.ident && r.isOf core w && r.drain.isNone) &&
      p.stores.any (fun y => spansMeet (y.1, y.2.length) x)))

/-- Whether a request is a write of another memory. -/
def ReqKind.stores : ReqKind → Bool
  | .store _ => true
  | _ => false

/-- Whether a request is one that a release of its warp at `seq` in program order awaits (R247, R251, R366): a NETST or a
contribution that comes before it. The stores of a drain, nothing else orders (R255). -/
def FabricReq.before (r : FabricReq) (seq : Nat) : Bool :=
  (r.kind == .push || (r.kind.stores && r.drain.isNone)) &&
    (match r.src with
     | some (k, _) => decide (k < seq)
     | none => true)

/-- Whether an earlier fabric store or contribution of the warp waits for its acknowledgement. -/
def State.netPending (s : State) (core w seq : Nat) : Bool := s.requests.any (fun r => r.isOf core w && r.before seq)

/-- Whether one of them is seq_cst: no later event of the warp precedes it (R247). -/
def State.netSc (s : State) (core w : Nat) : Bool := s.requests.any (fun r => r.isOf core w && r.kind == .store true)

/-- Sends a confirmed push (R36, R37, R367). A packet for this device waits for its arrival here; one for another
device leaves the model, and its answer comes as an event (log entry 5). -/
def State.sendPush (s : State) (core w : Nat) (p : Push) : State :=
  let own := p.dest == s.deviceNo
  match p.msg with
  | .contribution c =>
    let s1 := s.newRequest core w p.dest .push p.drain p.src
    if own then { s1 with contributions := s1.contributions ++ [{ c with sender := s.deviceNo, ident := s.nextIdent }] } else s1
  | .store n =>
    let s1 := s.newRequest core w p.dest (.store p.sc) p.drain p.src
    if own then { s1 with netStores := s1.netStores ++ [{ n with sender := s.deviceNo, ident := s.nextIdent }] } else s1
  | .fin q => if own then { s with pullReqs := s.pullReqs ++ [{ q with sender := s.deviceNo, ident := s.nextIdent }] } else s

/-! ### The release of BSYNC (R155) -/

/-- A warp's arrival at BSYNC is a release of the events of all its lanes, those too that wait there by the exit of the others: all
of them have been performed (R155). -/
def State.arrived (s : State) (core : Nat) (w : Warp) : Bool := w.arrived && w.quiet && !s.netPending core w.num w.seq

/-- Releases the block's BSYNC once every counted warp has arrived and the stacks of each may be accessed (R155). -/
def State.bsync (s : State) (core : Nat) : State :=
  match s.block core with
  | none => s
  | some b =>
    let counted := b.warps.filter Warp.counted
    if !counted.isEmpty && counted.all (s.arrived core) then (s.bsyncAll core (counted.map Warp.num)).getD s else s

/-- The same with the warp in view put back first. -/
def View.bsync (t : View) : View := t.through (fun s => s.bsync t.core)

/-- The same for every core: what had to wait is released when it can be (R128, R155). -/
def State.bsyncs (s : State) : State := (s.cores.map Core.num).foldl State.bsync s

end Sys2Proof.Machine
end

