-- ==== Sys2Proof/Machine/Ops.lean ====
section
/-!
DEFINITION. The operations every instruction shares: region entry (spec 02 R33 to R39), taking a fault,
which rolls the warp back or terminates it (spec 02 R38, spec 18 R435, R436), and retiring.
-/
namespace Sys2Proof.Machine

/-! ### Region entries (R33 to R39) -/

/-- Adds to a warp counter (R426). -/
def Warp.count (w : Warp) (k n : Nat) : Warp :=
  { w with counters := Cells.set w.counters k (Cells.get w.counters k + BitVec.ofNat 64 n) }

/-- The log record of a tentative record at its confirmation, with the block's tag if it holds one (R288). -/
def TentRec.confirm (r : TentRec) (tag : Option TagRef) : LogRec :=
  match tag with
  | some g => { bin := r.bin, rcd := { r.rcd with tag := g.tag }, tagged := true }
  | none => { bin := r.bin, rcd := r.rcd, tagged := false }

/-- Confirms the warp's region (R37): superseded versions and freed handles are released, tentative records and
pushes leave the warp, held counter operations take effect in order. -/
def View.confirmed (t : View) : View :=
  let w := t.w
  let free (h : HandleEntry) : HandleEntry :=
    if h.own == w.num && h.st == .freed then .zero
    else if h.own == w.num && h.st != .free then { h with rslot := 0, rv := false } else h
  let blk : Block := { t.blk with
    handles := t.blk.handles.map free
    log := t.blk.log ++ w.tent.map (fun r => r.confirm t.blk.tag) }
  let w1 : Warp := { w.count 5 w.tent.length with tent := [], pushes := [], held := [] }
  let d1 := w.pushes.foldl (fun s p => s.sendPush t.core w.num p) t.dev
  if w.held.isEmpty then { t with dev := d1, blk := blk, w := w1 }
  else
    let t1 : View := { t with blk := blk, w := w1, dev := d1 }
    let d2 := w.held.foldl (fun s h => s.applyHeld t.core w.num blk.launch h) t1.close
    match d2.viewOf t.core w.num with
    | some t2 => { t2 with cl := t.cl }
    | none => t1

/-- Slot-equivalents of the current versions of a block's handles (R39). -/
def Block.slotUse (b : Block) : Nat :=
  (b.handles.map (fun h => if h.v then (if h.acc then 2 else 1) else 0)).foldl (· + ·) 0

/-- The checkpoint of a warp at a region entry (R35, R314). -/
def View.takeCkpt (t : View) (resume : Addr) : Checkpoint :=
  { resume := resume, seq := t.w.seq, ring := t.w.ring, depth := t.w.depth, hw := t.w.hw, desc := t.w.desc,
    handles := ((List.range 32).zip t.blk.handles).filter (fun x => x.2.own == t.w.num && x.2.st == .owned),
    array := if t.blk.array.ownv && t.blk.array.ownw == t.w.num then some t.blk.array else none,
    planes := none, frame := t.w.frame }

/-- A region entry with its resume point: the region is confirmed, the rename budget checked, the checkpoint
taken, and a warp asked to stop stops (R37, R39, R47). -/
def View.enter (t : View) (resume : Addr) : Res :=
  let t1 := t.confirmed
  if 48 < t1.blk.slotUse then .faultIn t1 (flt 0x05 0x00)
  else .ok (t1.setW { t1.w with
    ckpt := t1.takeCkpt resume
    fence := t1.w.fence.map (fun f => { f with rollbacks := 0 })
    stop := if t1.w.stop == .asked then .stopped else t1.w.stop })

/-- Whether an operation is of the transform pipe (R192). -/
def Op.isXform (o : Op) : Bool :=
  match o.body with
  | .xqueued .. => true
  | .xaccepted .. => true
  | _ => false

/-- The place of a held counter operation. -/
def HeldOp.loc : HeldOp → Loc
  | .expect _ loc _ => loc
  | .stamp loc _ => loc

/-- Whether a held counter operation is a step stamp. -/
def HeldOp.isStamp : HeldOp → Bool
  | .stamp .. => true
  | .expect .. => false

/-- Whether a pending FENCE lets the warp pass a further region entry (R33, R46): no speculative read of the warp would still be
rolled back to the FENCE's resume point, which the new checkpoint replaces, and no held operation would be confirmed (log entry 21). -/
def Warp.fencePasses (w : Warp) : Bool := (w.fence.map (fun f => f.watch.isEmpty && !f.hit && w.held.isEmpty)).getD true

/-- Whether the warp may pass a region entry: its pending FENCE lets it, no transform instruction is outstanding, since
a rollback to the entry would remove it (R195), every earlier event has been performed before a step stamp, which is a release
of them, takes effect (R425), and the places of held operations may be accessed (R128). -/
def View.mayPass (t : View) : Bool :=
  t.w.fencePasses && t.w.ops.all (fun o => !o.isXform) &&
    ((t.w.quiet && !t.dev.netPending t.core t.w.num t.w.seq) || t.w.held.all (fun h => !h.isStamp)) &&
    t.w.held.all (fun h => !t.dev.locHeld h.loc 16)

/-- The same of an entry that an access or a job of the warp makes, which waits for a pending FENCE (R252). -/
def View.mayEnter (t : View) : Bool := t.mayPass && t.w.fence.isNone

/-! ### Leaving a clause -/

/-- Sets the pc of the running split. -/
def setRunPc (ring : List Split) (pc : Addr) : List Split :=
  ring.map (fun sp => if sp.st == .running then { sp with pc := pc } else sp)

/-- The running split continues at the next clause header (R80). -/
def View.fallThrough (t : View) : View :=
  t.setW { t.w with ring := setRunPc t.w.ring t.nextHeader, clause := none }

/-- A region entry after the instruction that issues: its resume point is the next clause header (R33). -/
def View.enterAfter (t : View) : Res := t.fallThrough.enter t.nextHeader

/-! ### Quadrants (R332, R333) -/

/-- A warp that the selection may find at an instruction to try (R27, R435, R47). -/
def Warp.tries (w : Warp) : Bool :=
  w.life == .live && w.outst.isNone && !w.faultWait && w.stop != .stopped && w.running.isSome &&
    (match w.fence with
     | some f => !f.hit && f.rollbacks < 2
     | none => true)

/-- A warp that would issue if it were selected: its next instruction waits for nothing. -/
def Warp.ready (w : Warp) : Bool := w.tries && w.waiting.isNone

/-- Whether the block's warp `n` is ready. -/
def Block.readyWarp (b : Block) (n : Nat) : Bool := ((b.warp n).map Warp.ready).getD false

/-- A warp leaves its quadrant (R333). -/
def Block.leaveQuad (b : Block) (n : Nat) : Block :=
  { b with quads := b.quads.map (fun q => { q with active := q.active.filter (fun x => x != n), pending := q.pending.filter (fun x => x.num != n) }) }

/-- The quadrant may make an exchange: its last lies 8 cycles back (R333). -/
def Quad.mayExchange (q : Quad) (clock : Word64) : Bool :=
  match q.last with
  | none => true
  | some (t, _, _) => 8 ≤ (clock - t).toNat

/-- The quadrant after its warp `a` has gone to the pending set, if it is active, and `p` to the active set (R333). -/
def Quad.exchange (q : Quad) (clock : Word64) (a p : Nat) : Quad :=
  let back : List Pend := if q.active.contains a then [{ num := a, since := clock, marks := [] }] else []
  { active := q.active.filter (fun x => x != a) ++ [p], pending := q.pending.filter (fun x => x.num != p) ++ back, last := some (clock, a, p) }

/-- Exchanges an active warp with a pending one (R333); both count it (R426, counter 2). -/
def Block.exchange (b : Block) (clock : Word64) (a p : Nat) : Block :=
  { b with
    quads := b.quads.map (fun q =>
      if q.active.contains a && q.pending.any (fun x => x.num == p) && q.mayExchange clock then q.exchange clock a p else q)
    warps := b.warps.map (fun w =>
      if (w.num == a || w.num == p) &&
          b.quads.any (fun q => q.active.contains a && q.pending.any (fun x => x.num == p) && q.mayExchange clock) then w.count 2 1 else w) }

/-- The warp of a pending set that an exchange takes: the ready one that has been pending longest (R333). -/
def Block.readyPend (b : Block) (q : Quad) : Option Nat := (q.pending.map Pend.num).find? b.readyWarp

/-- The quadrant in which warp `n` is active. -/
def Block.quadOf (b : Block) (n : Nat) : Option Quad := b.quads.find? (fun q => q.active.contains n)

/-! ### Rollback (R38, R46, R253, R314) -/

/-- The store buffer after a rollback to an entry at `seq`: the stores before the mark of a pending fence stand (R35, R38); of those
behind one, which are held writes, only those that precede the entry (R253). -/
def keepHeld (seq : Nat) (held : Bool) : List BufEntry → List BufEntry
  | [] => []
  | .fence :: r => .fence :: keepHeld seq true r
  | .store o :: r => if held && seq ≤ o.seq then keepHeld seq held r else .store o :: keepHeld seq held r

/-- The store buffer after a rollback to the warp's region entry. -/
def Warp.rolledBuf (w : Warp) : List BufEntry := if w.fence.isSome then keepHeld w.ckpt.seq false w.buf else w.buf

/-- A pending fence after a rollback: nothing is watched, and one to its own resume point is counted (R46, R253). -/
def FenceState.rolled (f : FenceState) (ck : Checkpoint) : FenceState :=
  { f with watch := [], hit := false, rollbacks := if ck.resume == f.resume && ck.seq == f.seq then f.rollbacks + 1 else f.rollbacks }

/-- The handle map after a rollback of warp `n`: its entries are those of the checkpoint; one handed over
has been handed before the entry and stays (R38, R298, R302). -/
def restoreHandles (hs : List HandleEntry) (n : Nat) (ck : List (Nat × HandleEntry)) : List HandleEntry :=
  ((List.range 32).zip hs).map (fun x =>
    match ck.find? (fun e => e.1 == x.1) with
    | some e => e.2
    | none => if x.2.own == n && (x.2.st == .owned || x.2.st == .freed) then .zero else x.2)

/-- The number of no slot: what a plane's `fromSlot` is once its slot has been freed and claimed again (R314). -/
def noSlot : Nat := 128

/-- The record in which no plane has its source version in the claimed slots any more (R314). -/
def ArrayRec.lose (a : ArrayRec) (ks : List Nat) : ArrayRec :=
  let f (p : Plane) : Plane := if ks.contains p.fromSlot then { p with fromSlot := noSlot } else p
  { a with p0 := f a.p0, p1 := f a.p1 }

/-- Slots are claimed for a new version: no plane can be reloaded from what they held (R314). -/
def Block.loseSlots (b : Block) (ks : List Nat) : Block :=
  { b with
    array := b.array.lose ks
    warps := b.warps.map (fun w => { w with ckpt := { w.ckpt with array := w.ckpt.array.map (fun a => a.lose ks), planes := w.ckpt.planes.map (fun a => a.lose ks) } }) }

/-- A plane after a rollback of the array's owner: unchanged contents are kept; a plane loaded in the region is
reloaded from the source version of the checkpoint, or invalid when that slot has been freed (R314). -/
def restorePlane (old now : Plane) (slotFree : Nat → Bool) : Plane :=
  if old.img == now.img && old.valid == now.valid && old.src == now.src && old.fmt == now.fmt then { old with img := now.img }
  else if old.valid && !old.saved && slotFree old.fromSlot then { old with valid := false }
  else old

/-- Whether a physical slot holds no version of any handle of the block, current or retained (R219). -/
def Block.slotFree (b : Block) (k : Nat) : Bool :=
  let uses (h : HandleEntry) : Bool := h.v && (h.slot == k || (h.acc && h.slot + 1 == k))
  !(b.handles.any uses) && !(b.warps.any (fun w => w.life == .live && w.ckpt.handles.any (fun x => uses x.2)))

/-- Planes loaded from a handle are stale once it is written, freed or converted (R308, R314). -/
def Block.stale (b : Block) (h : Nat) : Block :=
  let f (p : Plane) : Plane := if p.valid && p.src == h then { p with stale := true } else p
  { b with array := { b.array with p0 := f b.array.p0, p1 := f b.array.p1 } }

/-- Removes a warp's transform instructions: unaccepted ones never run, accepted ones write nothing (R195). -/
def Block.leavePipe (b : Block) (n : Nat) : Block :=
  { b with
    xqueues := b.xqueues.map (fun q => q.filter (fun k => k != n))
    xpipe := b.xpipe.map (fun q => q.filter (fun k => k != n)) }

/-- A COMMIT in progress is not rolled back: the warp already stands at the entry after it (R264). -/
def keepCommit (o : Option Outst) : Option Outst :=
  match o with
  | some (.commit sd since) => some (.commit sd since)
  | _ => none

/-- What stays under way after a rollback to `seq` (R38): what has issued before it, and atomics, whose lanes are performed but
deliver nothing any more (R35; log entry 36). -/
def keepOps (seq : Nat) (ops : List Op) : List Op :=
  ops.filterMap (fun o =>
    if o.seq < seq then some o
    else
      match o.body with
      | .atomic size _ ps xs => some { o with body := .atomic size 0 ps xs }
      | _ => none)

/-- The array's record after a rollback of warp `n` (R314): that of its checkpoint, or what the array held when the warp became its
owner; unchanged where neither is known, since another warp has owned it since. -/
def Block.rolledArray (b : Block) (n : Nat) (ck : Checkpoint) : ArrayRec :=
  match ck.array.orElse (fun _ => ck.planes) with
  | some a => { a with p0 := restorePlane a.p0 b.array.p0 b.slotFree, p1 := restorePlane a.p1 b.array.p1 b.slotFree }
  | none => if b.array.ownv && b.array.ownw == n then { b.array with ownv := false } else b.array

/-- Rolls the warp in view back to its region entry (R38). -/
def View.rollback (t : View) : View :=
  let w := t.w
  let ck := w.ckpt
  let b1 : Block := { t.blk.setWarp w with handles := restoreHandles t.blk.handles w.num ck.handles }
  { t with
    dev := t.dev.dropReads t.core w.num ck.seq
    blk := { b1 with array := b1.rolledArray w.num ck, fifoWait := b1.fifoWait.filter (fun x => x.2.2 != w.num) }.leavePipe w.num
    w := { w.count 3 1 with
      ring := ck.ring, depth := ck.depth, hw := ck.hw, frame := ck.frame, desc := ck.desc, clause := none,
      tent := [], pushes := [], held := [], outst := keepCommit w.outst, plan := [], ahead := [], waiting := none, wait := none, dead := none,
      loads := w.loads.filter (fun ld => ld.seq < ck.seq), ops := keepOps ck.seq w.ops, buf := w.rolledBuf,
      fence := w.fence.map (fun f => f.rolled ck) } }

/-! ### Termination (R436) -/

/-- The 32 bytes of a status entry (R433). -/
def statusBytes (f : FaultInfo) (warp : Nat) (mask : LaneMask) : List Byte :=
  let a := (f.addr.getD 0).toNat % 2 ^ 55 / 4
  leBytes 8 (f.cls.toNat + 2 ^ 4 * warp + 2 ^ 10 + 2 ^ 11 * a) ++
    leBytes 8 (f.detail.toNat + 2 ^ 16 * mask.toNat + (match f.lane with
      | some l => 2 ^ 48 * l + 2 ^ 53
      | none => 0)) ++
    leBytes 8 f.report.toNat ++
    leBytes 8 (match f.va with
      | some va => va.toNat % 2 ^ 55 + 2 ^ 63
      | none => 0)

/-- The address of byte `off` of region `slot` of a stack object that passes the placement checks (R432). -/
def ObjEntry.areaVa (e : ObjEntry) (slot off : Nat) : Option Addr :=
  if e.v && e.ok && e.space == 3 && 0x100000 ≤ e.len then some (e.base + BitVec.ofNat 64 (e.len * slot + off)) else none

/-- The region of a warp in its stack object (R208, R432). -/
def Launch.slot (l : Launch) (w : Nat) : Nat := 64 * l.block.toNat + w

/-- One device write into a warp's save area (R505): the object's entry is looked up through the page table, then the page is
written; nothing where the object fails the placement checks. -/
def State.tryArea (s : State) (ctx : Nat) (sys : Bool) (obj slot off : Nat) (bytes : List Byte) (who : Whose) : DevRes :=
  match s.objWords who.core ctx obj [] with
  | .error f => s.devFails ctx sys f (devRecord f 0 .read who)
  | .ok ws =>
    match (objOfWords ws).areaVa slot off with
    | none => .refused s
    | some va => (s.touchObj who.core ctx obj []).tryDevWrite ctx sys va bytes who

/-- The same, now or when its pages become resident. -/
def State.putArea (s : State) (core : Nat) (l : Launch) (w off who : Nat) (bytes : List Byte) : State :=
  (s.tryArea l.ctx l.sys l.stackObj (l.slot w) off bytes (l.whose core who)).orHold
    (.area l.ctx l.sys l.stackObj (l.slot w) off bytes (l.whose core who))

/-- Writes a warp's status entry (R433, R436, R505). -/
def State.putStatus (s : State) (core : Nat) (l : Launch) (w : Nat) (bytes : List Byte) : State := s.putArea core l w 0xFFC00 w bytes

/-- Writes the job fault of the block entry, for a warp that can no longer raise it (R286, R434). -/
def State.putJobFault (s : State) (core : Nat) (l : Launch) (w : Nat) (f : FaultInfo) : State :=
  s.putArea core l 0 0xFFC28 w ((statusBytes { f with lane := none } w 0).take 16)

/-- Frees the handles of a terminated or exited warp, and planes loaded from them are stale (R219, R298, R308, R348). `handed`
says whether those it has handed over go too. -/
def Block.freeHandles (b : Block) (n : Nat) (handed : Bool) : Block :=
  let goes (h : HandleEntry) : Bool := h.own == n && h.st != .free && (handed || h.st != .handed)
  let b1 := (((List.range 32).zip b.handles).filter (fun x => goes x.2)).foldl (fun c x => c.stale x.1) b
  { b1 with
    handles := b.handles.map (fun h => if goes h then .zero else h)
    array := if b.array.ownv && b.array.ownw == n then { b1.array with ownv := false } else b1.array }

/-- The device without a device access of a warp that waits. -/
def DevEvent.withdraws (e : DevEvent) (who : Whose) : Bool :=
  match e with
  | .withdraw _ _ _ x => x == who
  | _ => false

/-- Steps 4 to 6 of a termination (R436): the warp's handles are freed, its status entry is written, FLT of the grid record is set,
and a job fault it can no longer raise goes to the block entry. -/
def State.endWarp (s : State) (core n : Nat) (f : FaultInfo) (mask : LaneMask) : State :=
  match s.viewOf core n with
  | none => s
  | some t =>
    let l := t.blk.launch
    let s1 := s.setBlock core ((t.blk.freeHandles n true).setWarp { t.w with v := [], s := [], p := [], fs := 0, jobFault := none })
    let s2 := (s1.putStatus core l n (statusBytes f n mask)).setFlt l.ctx l.sys l.record (l.whose core n)
    match t.w.jobFault with
    | some g => s2.putJobFault core l n g
    | none => s2

/-- The terminations that waited for their withdrawals alone go on (R436). -/
def State.settleEnded (s : State) : State :=
  s.devEvents.foldl (fun u e =>
    match e.1 with
    | .ended c n f m =>
      match u.block c with
      | none => u
      | some b =>
        if u.devEvents.any (fun x => x.1.withdraws (b.launch.whose c n)) then u
        else ({ u with devEvents := u.devEvents.erase e } : State).endWarp c n f m
    | _ => u) s

/-- Terminates the warp in view with a fault whose address is known (R436). Atomics under way and accepted stores stand, those
behind a pending FENCE too, which are performed after it (log entry 36). Its handles, its status entry and what comes after wait
while a withdrawal does. -/
def View.terminate (t : View) (f : FaultInfo) : View :=
  let w := t.w
  let l := t.blk.launch
  let mask := w.runMask
  let w1 : Warp := { w with
    life := .terminated, ring := [], depth := 0, hw := [], clause := none,
    tent := [], pushes := [], held := [], loads := [], ops := keepOps 0 w.ops, outst := none, waiting := none, wait := none, plan := [], ahead := [],
    enrol := List.replicate 4 none,
    fence := w.fence.map (fun x => { x with watch := [], hit := false }), faultWait := false, dead := none }
  let b0 : Block := { t.blk with fifoWait := t.blk.fifoWait.filter (fun x => x.2.2 != w.num) }
  let b1 := ((b0.leaveQuad w.num).setWarp w1).leavePipe w.num
  let s0 := ((t.dev.dropReads t.core w.num 0).setBlock t.core b1).bsync t.core
  let s1 := (w.enrol.filterMap id).foldl (fun s e => s.withdraw t.core w.num l e) s0
  let s2 :=
    if s1.devEvents.any (fun e => e.1.withdraws (l.whose t.core w.num)) then s1.holdEvent (.ended t.core w.num f mask)
    else s1.endWarp t.core w.num f mask
  match s2.viewOf t.core w.num with
  | some t2 => t2
  | none => { t with w := w1 }

/-! ### Taking a fault -/

/-- The fault record of a warp (R342). -/
def View.faultRec (t : View) (f : FaultInfo) : FaultRec :=
  { va := f.va.getD 0, cls := f.cls, detail := f.detail, src := 0, kind := f.kind, block := t.blk.launch.block, warp := t.w.num, core := t.core }

/-- A replayable fault (R435): the warp is rolled back, one fault record posted, and the warp waits for a retry; one that has been
asked to stop does so 10 µs after the request (R47, R501). -/
def View.replay (t : View) (f : FaultInfo) : View :=
  let t1 := t.rollback
  { t1 with
    dev := t1.dev.postFault t1.blk.launch.ctx t1.blk.launch.sys (t.faultRec f)
    w := { t1.w with faultWait := true, faultSince := t1.dev.clock } }

/-- Taking a fault (R430, R435, R436): a replayable fault rolls the warp back, every other terminates it. The
faulting word is the instruction's first word unless the fault names another (R102). -/
def View.raise (t : View) (f : FaultInfo) : State :=
  let g : FaultInfo := { f with addr := some (f.addr.getD t.pc) }
  if g.replayable then (t.replay g).close else (t.terminate g).close

/-! ### Retiring (R80) -/

/-- The warp goes on after an instruction: to the next of the clause, or to the next header after its last. An instruction
that has left its clause has placed the warp itself. -/
def View.advance (t : View) : View :=
  match t.w.clause with
  | none => t
  | some cl =>
    if cl.todo.tail.isEmpty then t.fallThrough
    else t.setW { t.w with clause := some { cl with idx := cl.idx + (cl.todo.headD []).length, todo := cl.todo.tail } }

/-- An instruction has issued (R332, R426): its wait, if any, is over, and the last one of a clause with YH asks for the yield
(R87). -/
def View.retire (t : View) : View :=
  (t.setW { t.w.count 0 1 with
    wait := none, lastIssue := t.dev.clock, yielded := t.cl.word.getLsbD 7 && t.cl.todo.tail.isEmpty }).advance

/-- The warp waits at its next instruction, and has so since it first met the wait (R333). -/
def View.stalled (t : View) (k : WaitKind) : View :=
  t.setW { t.w with waiting := some ((t.w.waiting.map Prod.fst).getD t.dev.clock, k), polledAt := t.dev.clock }

/-- The wait of a warp at its next instruction is over: it is ready from now on, and issues when it is next selected (R332). -/
def View.polled (t : View) : View := t.setW { t.w with waiting := none, polledAt := t.dev.clock }

/-- The state after an instruction's own operation has ended as `r`, with the warp `t` in view; `k` is what a wait there is. A warp
that has been waiting becomes ready, and its instruction issues when the warp is selected (R332). One that waits keeps its place in
the plan of its window (R402). -/
def View.finish (t : View) (k : WaitKind) (r : Res) : State :=
  match r with
  | .wait => (t.stalled k).close
  | .hold t' => ((t'.setW { t'.w with plan := t.w.plan }).stalled k).close
  | .skip t' => if t.w.waiting.isSome then t.polled.close else t'.advance.close
  | .ok t' => if t.w.waiting.isSome then t.polled.close else t'.retire.close
  | .fault f => if f.cls == 0 then (t.stalled k).close else if t.w.waiting.isSome then t.polled.close else t.raise f
  | .faultIn t' f => if f.cls == 0 then (t.stalled k).close else if t.w.waiting.isSome then t.polled.close else t'.raise f

/-- An event that is not enabled changes nothing. -/
def State.same (s : State) : Host.Outcome State Fault Refusal := .next s

end Sys2Proof.Machine
end

