-- ==== Sys2Proof/Machine/Issue.lean ====
section
/-!
DEFINITION. Issuing an instruction: the scoreboard, which holds it back from what is under way (spec 04 R82, R95; spec 08 R193;
spec 10 R247; spec 12 R305), registers that hold an uncorrectable error (spec 18 R437), skipping under an empty mask and the
uniformity check (spec 04 R85, spec 02 R41), and the instruction's own operation.
-/
namespace Sys2Proof.Machine

/-! ### The scoreboard (R82, R95, R193, R247, R305) -/

/-- Whether a scope reaches beyond the warp; at lane or warp scope nothing is ordered for others (R246, R247). -/
def wideScope (sco : BitVec 3) : Bool := 2 ≤ sco.toNat

/-- Whether an order has an acquire part: acquire, acq_rel, seq_cst. -/
def isAcquire (ord : BitVec 3) : Bool := ord == 1 || ord == 3 || ord == 4

/-- Whether an order has a release part: release, acq_rel, seq_cst. -/
def isRelease (ord : BitVec 3) : Bool := ord == 2 || ord == 3 || ord == 4

/-- The order and scope of an atomic. -/
def atomOrd : Instr → BitVec 3 × BitVec 3
  | .atom f | .atoms f | .atomc f | .atomx f | .rwlrd f | .rwlwr f | .rwlup f | .rwlrel f => (f.ord, f.sco)
  | _ => (0, 0)

/-- The order and scope of a fabric read. -/
def fabricOrd : Instr → BitVec 3 × BitVec 3
  | .netld f | .collpull f => (f.ord, f.sco)
  | _ => (0, 0)

/-- Whether an instruction that names the handles `hs` must wait for an operation under way: it names what the operation still
writes, or writes what it still reads. -/
def Op.hinders (o : Op) (i : Instr) (hs : List Nat) : Bool :=
  let h := o.holds
  meets h.wv (i.groups.flatMap grpRegs) || meets h.ws (readsS i ++ writesS i) || meets h.wp (readsP i ++ writesP i) ||
    meets h.rv (writesV i) || meets h.wh hs

/-- A seq_cst store not yet performed precedes every later event of the warp (R247). -/
def Warp.scStore (w : Warp) : Bool :=
  w.buf.any (fun e =>
    match e with
    | .store o => o.sc
    | .fence => false)

/-- Whether an operation under way is an acquire: no later event of the warp precedes it (R247). -/
def Op.acquires (o : Op) : Bool :=
  match o.body with
  | .atomic _ eff _ _ => eff != 0 && isAcquire (atomOrd o.instr).1 && wideScope (atomOrd o.instr).2
  | .fabric .. => isAcquire (fabricOrd o.instr).1 && wideScope (fabricOrd o.instr).2
  | _ => false

/-- Whether a CSR read or write must follow an operation that sets flags (R74). -/
def Op.setsFlags (o : Op) : Bool :=
  match o.body with
  | .xqueued .. => true
  | .xaccepted .. => true
  | .tile .. => true
  | .chain .. => true
  | _ => false

/-- CSR accesses of cr.fpflags and cr.satflag. -/
def flagCsr : Instr → Bool
  | .csr f => f.fn.toNat ≤ 1
  | _ => false

/-- Whether an instruction of the clause is still under way in a clause of class 7, which is single-issue: a load, an operation or a
change of the bank modes (R82, R294). -/
def View.single (t : View) : Bool :=
  t.cl.word.extractLsb' 21 3 == 7 &&
    (t.w.loads.any (fun ld => t.cl.start ≤ ld.seq) || t.w.ops.any (fun o => t.cl.start ≤ o.seq) ||
      t.blk.bankChanges.any (fun c => c.warp == t.w.num && t.cl.start ≤ c.seq))

/-- The handles an instruction names: those it writes and reads (R304, R305, R311). -/
def View.handlesOf (t : View) (i : Instr) : List Nat := (tileHandles i).1 ++ (tileHandles i).2 ++ t.blk.pairHandle i

/-- Whether the instruction waits for a load or operation of the warp: one whose registers or handles it needs, or an acquire (R74,
R95, R193, R247, R305). -/
def View.opHazard (t : View) (i : Instr) : Bool :=
  t.w.loads.any (fun ld => ld.acq || ld.dst.hits (i.groups.flatMap grpRegs) (readsS i ++ writesS i)) ||
    t.w.ops.any (fun o => o.acquires || o.hinders i (t.handlesOf i) || (flagCsr i && o.setsFlags))

/-- Whether the instruction waits for what the warp has under way: a load or operation, a seq_cst store (R247), or the one before
it in a clause of class 7 (R82). -/
def View.hazard (t : View) (i : Instr) : Bool :=
  t.opHazard i || t.single || t.w.scStore || t.dev.netSc t.core t.w.num

/-- The vector registers that an instruction reads in every lane that has not exited, in E or not (R180 to R183, R190). -/
def crossReads : Instr → List Nat
  | .vslide f => if f.var.toNat ≤ 1 then [f.a.toNat, f.a.toNat + 1] else [f.a.toNat]
  | .vshuf f => [f.a.toNat]
  | .vbcast f => if f.var == 1 || f.var == 3 then [f.a.toNat, f.a.toNat + 1] else [f.a.toNat]
  | _ => []

/-- Whether the instruction reads a register that holds an uncorrectable error (R180, R437). -/
def View.badRegister (t : View) (i : Instr) : Bool :=
  !t.dev.bad.isEmpty &&
    ((readsV i).any (fun r => t.effLanes.any (fun l => t.dev.bad.contains (.vreg t.core t.w.num r l))) ||
      (crossReads i).any (fun r => (lanes t.w.liveLanes).any (fun l => t.dev.bad.contains (.vreg t.core t.w.num r l))) ||
      (readsS i).any (fun r => r != 0 && t.dev.bad.contains (.sreg t.core t.w.num r)) ||
      (readsP i).any (fun r => r != 0 && t.dev.bad.contains (.pred t.core t.w.num r)))

/-- Error marks of registers an instruction has written whole are cleared (R437). -/
def View.healRegisters (t : View) (i : Instr) (r : Res) : Res :=
  match r with
  | .ok t' =>
    if t'.dev.bad.isEmpty then .ok t'
    else
      .ok { t' with dev := { t'.dev with bad := t'.dev.bad.filter (fun p =>
        !((writesV i).any (fun x => t.effLanes.any (fun l => p == .vreg t.core t.w.num x l)) ||
          (t.eff == 0xFFFFFFFF && (writesP i).any (fun x => p == .pred t.core t.w.num x)) ||
          (writesS i).any (fun x => p == .sreg t.core t.w.num x))) } }
  | r => r

/-- The warp-uniform instructions (R41). -/
def isUniform : Instr → Bool
  | .cpy _ | .cpyg _ | .commit _ | .spawn _ | .launch _ | .collgrp _ | .collgrpClr _ | .bankcfg _ | .rwload _ | .objset _
  | .objsetClr _ | .tlbinvVa _ | .tlbinvAll _ | .tlbinvObj _ | .tdrain _ => true
  | _ => false

/-- The tile instructions, opcodes 0x7E to 0x93 (R394). -/
def isTile : Instr → Bool
  | .talloc _ | .tfree _ | .thand _ | .ttake _ | .tld _ | .tst _ | .tldw _ | .tswap _ | .tmma _ | .tmmac _ | .tzero _ | .tscale _
  | .ttrans _ | .tcvt _ | .tquant _ | .tadd _ | .tmul _ | .tred _ | .tabsmax _ | .tgetrow _ | .tsetrow _ | .tdrain _ => true
  | _ => false

/-- Whether an instruction passes through the rewrite stage: a tile instruction of a clause of class 3 (R394). -/
def View.inWindow (t : View) (i : Instr) : Bool := isTile i && t.cl.word.extractLsb' 21 3 == 3

/-- What a wait at an instruction is in the long-latency stalls of R333. -/
def stallKind : Instr → WaitKind
  | .commit _ | .collwait _ | .collwaitStat _ => .long 0
  | .fput _ | .fget _ => .long 200
  | .cpyw _ | .barwait _ | .cctlIfetch _ | .cctlFlush _ | .cctlWb _ | .ttake _ | .talloc _ | .collpull _ | .objset _ | .objsetClr _
  | .tlbinvVa _ | .tlbinvAll _ | .tlbinvObj _ | .rwload _ => .long 201
  | _ => .short

/-- The instruction `i` of the warp in view, whose own operation is `body` (R102): with an empty effective mask it is skipped
(R85), with its place in the plan of the window; a warp-uniform one needs every live lane (R41); one of a rewrite window has the fate that its match gave it (R402), and its
group's last member is `issueTile`'s. -/
def View.run (t : View) (i : Instr) (body : View → Res) : Res :=
  if t.eff == 0 then .skip (if t.inWindow i then t.setW { t.w with plan := t.w.plan.tail } else t)
  else if isUniform i && t.eff != t.w.liveLanes then .fault (flt 0x06 0x00)
  else if t.badRegister i then .fault (flt 0x0E 0x00)
  else if !t.inWindow i then t.healRegisters i (body t)
  else
    match t.w.plan with
    | .pass :: r => t.healRegisters i (body (t.setW { t.w with plan := r }))
    | .absorbed :: r => .skip (t.setW { t.w with plan := r })
    | _ => .wait

/-- Executes `i` for the warp that issues: it waits at a hazard, or ends as its own operation does. -/
def issue (i : Instr) (body : View → Res) (s : State) : Host.Outcome State Fault Refusal :=
  match s.view with
  | none => .fault .noCurrentWarp
  | some t =>
    if t.cl.todo.isEmpty then .fault .noCurrentWarp
    else if t.eff != 0 && t.hazard i then .next (t.stalled .result).close
    else .next (t.finish (stallKind i) (t.run i body))

/-- Executes an instruction that is a decode fault (R100, R101): it does not depend on lanes, and the faulting
word is the `off`-th from the instruction's first. -/
def issueBad (cls : BitVec 4) (detail : BitVec 16) (off : Nat) (s : State) : Host.Outcome State Fault Refusal :=
  match s.view with
  | none => .fault .noCurrentWarp
  | some t =>
    if t.cl.todo.isEmpty then .fault .noCurrentWarp
    else if t.single then .next (t.stalled .result).close
    else .next (t.finish .short (.fault { flt cls detail with addr := some (t.pc + BitVec.ofNat 64 (4 * off)) }))

end Sys2Proof.Machine
end

