-- ==== Sys2Proof/Machine/Pending.lean ====
section
/-!
DEFINITION. Reads that an instruction makes as it issues (records of spec 03 R59, spec 11 R281, spec 14
R356): they follow the warp's own earlier stores and any pending fence (spec 10 R245, R252).
-/
namespace Sys2Proof.Machine

/-! ### What comes before (R241, R247) -/

/-- Every event of the warp so far has been performed, as a release and a seq_cst read ask (R247). -/
def View.drained (t : View) : Bool := t.w.quiet && !t.dev.netPending t.core t.w.num t.w.seq

/-- An access at a place waits: for the warp's own accesses of it (R241), for a change of the DRAM region's mode (R128), for a
pending FENCE (R252). -/
def View.placeBusy (t : View) (loc : Loc) (n : Nat) : Bool :=
  t.w.fence.isSome || t.w.ownStores loc n || t.w.ownReads loc n || t.dev.netHeld t.core t.w.num loc n ||
    t.dev.locHeld loc n

/-- What a read at issue gives. -/
inductive ReadRes where
  | ok (t : View) (bytes : List Byte)
  | fault (f : FaultInfo)
  | wait

/-- The parts of `n` bytes at an address that lie in one page of 64 KB each, for at most 65,536 bytes: offset and length. -/
def pageParts (va : Addr) (n : Nat) : List (Nat × Nat) :=
  let k := min n (65536 - va.toNat % 65536)
  (if k = 0 then [] else [(0, k)]) ++ (if k < n then [(k, n - k)] else [])

/-- The parts of a read of context memory with the leaf of each: every page is translated, and then every page is checked (steps 6
and 7 of R266, R384). -/
def State.readParts (s : State) (l : Launch) (va : Addr) (n : Nat) : Except FaultInfo (List (Nat × Nat × Leaf)) := do
  let ls ← eachLane (fun (p : Nat × Nat) =>
    match s.walk l.ctx (va + BitVec.ofNat 64 p.1) [600] with
    | .error f => Except.error { f with kind := AccKind.read.code }
    | .ok x => Except.ok (p.1, p.2, x)) (pageParts va n)
  let _ ← eachLane (fun (q : Nat × Nat × Leaf) => pageCheck .read false false l.sys (va + BitVec.ofNat 64 q.1) q.2.2) ls
  .ok ls

/-- Reads `n` bytes of context memory at a virtual address, with the rights of a read (R384). The read waits for own accesses of
those bytes and for a pending fence, and on a deferred page for a commit of the block in progress (R261). -/
def View.readVa (t : View) (va : Addr) (n : Nat) : ReadRes :=
  let l := t.blk.launch
  let place (q : Nat × Nat × Leaf) : Loc := t.dev.placeAt q.2.2
  let held (q : Nat × Nat × Leaf) : Bool := t.placeBusy (place q) q.2.1 || (pteD q.2.2.pte && t.blk.commit.isSome)
  match t.dev.readParts l va n with
  | .error f => .fault f
  | .ok ls =>
    if ls.any held then .wait
    else
      match eachLane (fun (q : Nat × Nat × Leaf) =>
          match t.dev.readLoc t.core t.w.num (place q) q.2.1 with
          | .error f => Except.error (f.at (va + BitVec.ofNat 64 q.1))
          | .ok bs => Except.ok bs) ls with
      | .error f => .fault f
      | .ok bss =>
        let d := ls.foldl (fun (s : State) q => (s.touch (some t.core) l.ctx (va + BitVec.ofNat 64 q.1) [600]).visit false (place q) q.2.1) t.dev
        .ok { t with dev := d } bss.flatten

/-- Continues with what a read at issue gave. -/
def ReadRes.then (r : ReadRes) (k : View → List Byte → Res) : Res :=
  match r with
  | .ok t bs => k t bs
  | .fault f => .fault f
  | .wait => .wait

/-! ### Orders and scopes (R92, R244 to R247, R267) -/

/-- The order of a form D access (R267). -/
def ordD (f : FormD) : BitVec 3 := (f.ext.map (fun p => if extOV p then extORD p else 0)).getD 0

/-- The scope of a form D access, or the default of R269. -/
def scoD (f : FormD) (dflt : BitVec 3) : BitVec 3 := (f.ext.map (fun p => if extSV p then extSCO p else dflt)).getD dflt

/-- Whether a place is shared beyond the lane; an access of a slice alone orders nothing (R245). -/
def Loc.shared : Loc → Bool
  | .slice _ _ => false
  | _ => true

/-- Whether a place lies in global memory, of this device or another. -/
def Loc.isGlobal : Loc → Bool
  | .mem _ _ => true
  | .packed _ _ _ _ _ _ => true
  | .remote _ _ => true
  | .lost => true
  | _ => false

/-- Adds a load to the outstanding ones, and sends its requests to other devices (R268, R373). -/
def View.pushLoad (t : View) (dst : LoadDst) (size : Nat) (ps : List LanePlace) (ord sco : BitVec 3) (plain dfr : Bool) : View :=
  let wide := wideScope sco && ps.any (fun p => p.loc.shared)
  let ld : LoadOp :=
    { seq := t.w.seq, pc := t.pc, since := t.dev.clock, dst := dst, size := size, lanes := ps, acq := isAcquire ord && wide, plain := plain, dfr := dfr,
      glob := ps.any (fun p => p.loc.isGlobal) }
  let homes := addAll [] (ps.filterMap (fun p =>
    match p.loc with
    | .remote h _ => some h
    | _ => none))
  { t with
    dev := homes.foldl (fun s h => s.newRequest t.core t.w.num h (.load t.w.seq) none) t.dev
    w := { t.w with seq := t.w.seq + 1, loads := t.w.loads ++ [ld] } }

/-- Adds stores to the buffer in lane order (R240, R268). -/
def View.pushStores (t : View) (ps : List (Loc × List Byte)) (add : Option (BitVec 4)) (ord sco : BitVec 3) : View :=
  let wide := wideScope sco
  let mk (p : Loc × List Byte) : BufEntry :=
    .store { seq := t.w.seq, pc := t.pc, loc := p.1, bytes := p.2, add := add,
             rel := isRelease ord && wide && p.1.shared, sc := ord == 4 && wide && p.1.shared, sco := sco }
  t.setW { t.w with seq := t.w.seq + 1, buf := t.w.buf ++ ps.map mk }

/-- Caches the translations of lanes and their object entry: one lookup for each page of an access (R381, R385). -/
def View.touchLanes (t : View) (obj : Option Nat) (as : List LaneAcc) : View :=
  let l := t.blk.launch
  let d0 := match obj with
    | some n => t.dev.touchObj t.core l.ctx n []
    | none => t.dev
  { t with dev := d0.touchAll (some t.core) l.ctx (addAll [] (as.flatMap LaneAcc.walked) |>.map (fun va => (va, []))) }

/-- The lane places of resolved accesses. -/
def LaneAcc.place (a : LaneAcc) (hasVa : Bool) : LanePlace := { lane := a.lane, va := if hasVa then some a.va else none, loc := a.loc }

/-- A bank that a mode change of the block is about to change (R215). -/
def Block.changing (b : Block) (k : Nat) : Bool :=
  b.bankChanges.any (fun c => c.banks.getLsbD k)

/-- Whether a scratchpad offset lies in a bank under a mode change: an access to it waits (R215). -/
def Block.offBusy (b : Block) (x : Int) : Bool := 0 ≤ x && b.changing (bankOf x.toNat)

/-- Whether a gang-window offset lies in such a bank of its target (R215, R217). -/
def View.gangBusy (t : View) (x : Int) : Bool :=
  let r := x.toNat / 2 ^ 20
  if x < 0 then false
  else if r = t.blk.launch.rank then t.blk.offBusy (x % 2 ^ 20)
  else
    match t.dev.gangPeer t.core t.blk r with
    | some p => p.offBusy (x % 2 ^ 20)
    | none => false

/-- Writes of a completed operation. -/
def Warp.applyWrites (w : Warp) : List RegWrite → Warp
  | [] => w
  | .v r l x :: rest => Warp.applyWrites (w.wv r l x) rest
  | .s r x :: rest => Warp.applyWrites (w.ws r x) rest

/-- The place of a register write. -/
def RegWrite.place (core w : Nat) : RegWrite → Place
  | .v r l _ => .vreg core w r l
  | .s r _ => .sreg core w r

/-- Writes the registers of a warp, and clears the error marks of the words replaced (R437). -/
def State.writeRegs (s : State) (core w : Nat) (ws : List RegWrite) : State :=
  let s1 := s.mapWarp core w (fun x => x.applyWrites ws)
  if s1.bad.isEmpty then s1
  else { s1 with bad := s1.bad.filter (fun p => !(ws.any (fun x => x.place core w == p))) }

end Sys2Proof.Machine
end

