-- ==== Sys2Proof/Machine/MemAccess.lean ====
section
/-!
DEFINITION. The short-form memory instructions, FENCE and bank and cache control (spec 11 R265 to R273, R280,
R293, R294; spec 10 R251, R252).
-/
namespace Sys2Proof.Machine

/-! ### Lanes of the spaces (R265, R270) -/

/-- The spaces LD and ST accept: global, stack and pod aperture (R270). -/
def objSpaces : List Nat := [0, 2, 3]

/-- The lane offsets of a form D access. -/
def View.offsD (t : View) (f : FormD) : List (Nat × Int) := t.effLanes.map (fun l => (l, t.w.laneOff f.off (immDisp f.imm) l))

/-- Whether a resolved access may be speculative behind a fence (R252). -/
def plainAcc (e : ObjEntry) (a : LaneAcc) : Bool :=
  !pteD a.pte && !pteCP a.pte && e.layout == 0 &&
    (match a.loc with
     | .mem v _ => !v.loop && !v.vault && v.cls ≤ 2
     | _ => false)

/-- A read of a deferred page waits for a commit of the block in progress (R261). -/
def View.commitHolds (t : View) (as : List LaneAcc) : Bool := t.blk.commit.isSome && as.any (fun a => pteD a.pte)

/-- A seq_cst read follows every earlier event of the warp (R247; log entry 33). -/
def View.scHolds (t : View) (ord sco : BitVec 3) : Bool := ord == 4 && wideScope sco && !t.drained

/-- A load through an object: checks, then the load is outstanding (R266, R268, R270). -/
def View.loadObj (t : View) (n size : Nat) (dst : LoadDst) (offs : List (Nat × Int)) (ord sco : BitVec 3) : Res :=
  let l := t.blk.launch
  match t.dev.objLanes t.core l.ctx l.sys n objSpaces .read false size offs with
  | .error f => .fault f
  | .ok (e, as) =>
    if t.commitHolds as || t.scHolds ord sco then .wait
    else .ok ((t.touchLanes (some n) as).pushLoad dst size (as.map (fun a => a.place true)) ord sco
      (as.all (plainAcc e)) (as.any (fun a => pteD a.pte)))

/-- A store through an object: checks, then the stores are buffered (R266, R268, R270). -/
def View.storeObj (t : View) (n size : Nat) (val : Nat → Nat) (offs : List (Nat × Int)) (ord sco : BitVec 3) : Res :=
  let l := t.blk.launch
  match t.dev.objLanes t.core l.ctx l.sys n objSpaces .write false size offs with
  | .error f => .fault f
  | .ok (_, as) =>
    .ok ((t.touchLanes (some n) as).pushStores (as.map (fun a => (a.loc, leBytes size (val a.lane)))) none ord sco)

/-- A load of scratchpad or gang-window words from resolved lanes. -/
def View.loadPlaces (t : View) (obj : Option Nat) (dst : LoadDst) (as : List LaneAcc) (ord sco : BitVec 3) : Res :=
  if t.scHolds ord sco then .wait
  else .ok ((t.touchLanes obj as).pushLoad dst 4 (as.map (fun a => a.place obj.isSome)) ord sco false false)

/-- A store of words to resolved lanes. -/
def View.storePlaces (t : View) (obj : Option Nat) (val : Nat → Nat) (as : List LaneAcc) (ord sco : BitVec 3) : Res :=
  .ok ((t.touchLanes obj as).pushStores (as.map (fun a => (a.loc, leBytes 4 (val a.lane)))) none ord sco)

/-- The scratchpad lanes of an access; a bank under a mode change is awaited first (R211, R215). -/
def View.scratchAcc (t : View) (size : Nat) (offs : List (Nat × Int)) (k : List LaneAcc → Res) : Res :=
  if offs.any (fun o => t.blk.offBusy o.2) then .wait
  else
    match scratchLanes t.blk t.core size offs with
    | .error f => .fault f
    | .ok as => k as

/-- The gang-window lanes of an access; a bank under a mode change is awaited first (R215, R216). -/
def View.gangAcc (t : View) (n : Nat) (kind : AccKind) (offs : List (Nat × Int)) (k : List LaneAcc → Res) : Res :=
  if offs.any (fun o => t.gangBusy o.2) then .wait
  else
    match t.dev.gangLanes t.core t.blk n kind 4 offs with
    | .error f => .fault f
    | .ok as => k as

/-! ### FIFO rings (R213, R272) -/

/-- The ring of a bank. -/
def Block.ring (b : Block) (k : Nat) : Fifo := (b.fifo.find? (fun e => e.bank == k)).getD { bank := k, head := 0, words := [] }

/-- Replaces a ring; an empty one at head 0 is not listed. -/
def Block.setRing (b : Block) (r : Fifo) : Block :=
  let rest := b.fifo.filter (fun e => e.bank != r.bank)
  { b with fifo := if r.words.isEmpty && r.head == 0 then rest else r :: rest }

/-- The warps that wait to put to bank `k`, or to get from it, in the order of their arrival (R272). -/
def Block.fifoQueue (b : Block) (k : Nat) (put : Bool) : List Nat :=
  (b.fifoWait.filter (fun x => x.1 == k && x.2.1 == put)).map (fun x => x.2.2)

/-- Warp `n` waits at no bank any more. -/
def Block.leaveFifo (b : Block) (n : Nat) : Block := { b with fifoWait := b.fifoWait.filter (fun x => x.2.2 != n) }

/-- The warp waits at bank `k`, in the place of its arrival (R272). -/
def View.fifoHold (t : View) (k : Nat) (put : Bool) : Res :=
  .hold { t with
    blk := if (t.blk.fifoQueue k put).contains t.w.num then t.blk else { t.blk with fifoWait := t.blk.fifoWait ++ [(k, put, t.w.num)] }
    w := { t.w with wait := some (.fifo k) } }

/-- A FIFO access of bank `k` by the warp: a wait that a mode change has ended faults (R214); the bank is in FIFO mode and under no
change, no fence or earlier event holds the access (R252, R272), and `k2` performs it when the warp's turn has come and `fits` says
that the ring has the room or the entries. -/
def View.fifoAcc (t : View) (k : Nat) (put held : Bool) (fits : Fifo → Bool) (k2 : View → Fifo → Res) : Res :=
  match t.w.wait with
  | some (.failed c d) => .faultIn { t with blk := t.blk.leaveFifo t.w.num } (flt c d)
  | _ =>
    if t.blk.changing k then .wait
    else if Cells.get t.blk.bankMode k != 3 then .fault (flt 0x09 0x06)
    else if t.w.fence.isSome || held then .wait
    else if (t.blk.fifoQueue k put).headD t.w.num == t.w.num && fits (t.blk.ring k) then
      k2 { t with blk := t.blk.leaveFifo t.w.num } (t.blk.ring k)
    else t.fifoHold k put

/-! ### FENCE (R251, R252, R280) -/

/-- The reads of the warp before `seq` have been performed: its loads, atomics, tile loads and NETLDs. -/
def Warp.readsDone (w : Warp) (seq : Nat) : Bool :=
  w.loads.all (fun ld => seq ≤ ld.seq) && w.ops.all (fun o => seq ≤ o.seq || o.lanes.isEmpty)

/-- Whether a fence of an order and scope has anything to await (R251, R252): its acquire part the earlier reads, its release part
every earlier event. -/
def View.fencePends (t : View) (ord sco : BitVec 3) : Bool :=
  wideScope sco && ((isAcquire ord && !t.w.readsDone t.w.seq) || (isRelease ord && !t.drained))

/-! ### Cache and bank control (R293, R294) -/

/-- The bank modes after a change (R294). -/
def newModes (m : Cells 2) (banks : BitVec 48) (mode : BitVec 2) : Nat → Cells 2
  | 0 => m
  | k + 1 => let r := newModes m banks mode k; if banks.getLsbD k then Cells.set r k mode else r

/-- The scratchpad banks are banks 0 to 4q − 1 for some q (R210, R294). -/
def layoutOk (m : Cells 2) : Bool :=
  let n := ((List.range 48).filter (fun k => Cells.get m k == 2)).length
  n % 4 == 0 && (List.range n).all (fun k => Cells.get m k == 2)

/-- Whether a resident page of the virtual range of `n` bytes from `lo`, widened to sectors, maps a sector (R293). -/
def State.rangeMaps (s : State) (ctx lo n sector : Nat) : Bool :=
  n != 0 && (List.range ((lo + n - 1) / 4096 - lo / 4096 + 1)).any (fun i =>
    let page := 4096 * (lo / 4096 + i)
    match s.walk ctx (BitVec.ofNat 64 page) [302, i] with
    | .error _ => false
    | .ok l =>
      match (s.placeOf l.pa).pa? with
      | some p =>
        decide (p ≤ 128 * sector ∧ 128 * sector < p + 4096 ∧
          lo / 128 ≤ (page + 128 * sector - p) / 128 ∧ (page + 128 * sector - p) / 128 ≤ (lo + n - 1) / 128)
      | none => false)

/-- Drops the earlier forms of the code in a virtual range (R293, R104). -/
def State.dropCode (s : State) (ctx lo n : Nat) : State :=
  { s with oldCode := s.oldCode.filter (fun e => !s.rangeMaps ctx lo n e.sector) }

/-- What `f` does to each sector of a virtual range that a home slice holds (R293). -/
def State.onHome (s : State) (ctx lo n : Nat) (f : State → Nat → State) : State :=
  ((s.home.map HomeSector.sector).filter (s.rangeMaps ctx lo n)).foldl f s

/-- A CCTL: a length of at most 2^36, the warp's earlier stores, then its effect on the range (R293). -/
def View.cctl (t : View) (f : FormH) (g : State → Nat → Nat → Nat → State) : Res :=
  if 2 ^ 36 < (t.w.rs f.sb).toNat then .fault (flt 0x02 0x00)
  else if t.w.rs f.sb == 0 then .ok t
  else if !t.w.buf.isEmpty || t.dev.netPending t.core t.w.num t.w.seq then .wait
  else .ok { t with dev := g t.dev t.blk.launch.ctx (t.w.rs f.sa).toNat (t.w.rs f.sb).toNat }

/-! ### Meanings -/

/-- LD (R270). -/
def execLd (f : FormD) (s : State) : Host.Outcome State Fault Refusal :=
  issue (.ld f) (fun t => t.loadObj (objNum f.obj f.ext) 4 (.v f.data.toNat 1) (t.offsD f) (ordD f) (scoD f 4)) s
/-- ST (R270). -/
def execSt (f : FormD) (s : State) : Host.Outcome State Fault Refusal :=
  issue (.st f) (fun t => t.storeObj (objNum f.obj f.ext) 4 (fun l => (t.w.rv f.data.toNat l).toNat) (t.offsD f) (ordD f) (scoD f 4)) s
/-- LDP: the slice, or the stack object beyond it (R207). -/
def execLdp (f : FormD) (s : State) : Host.Outcome State Fault Refusal :=
  issue (.ldp f) (fun t =>
    match t.dev.privLanes t.core t.blk.launch t.w.num .read (t.effLanes.map (fun l => (l, t.w.laneOffS f.off (immDisp f.imm) l))) with
    | .error e => .fault e
    | .ok (e, as) =>
      if t.commitHolds as || t.scHolds (ordD f) (scoD f 0) then .wait
      else
        let far := as.filter (fun a => a.loc.shared)
        .ok ((t.touchLanes (if far.isEmpty then none else some t.blk.launch.stackObj) far).pushLoad (.v f.data.toNat 1) 4 (as.map (fun a => a.place a.loc.shared)) (ordD f) (scoD f 0)
          (as.all (plainAcc e)) (as.any (fun a => pteD a.pte)))) s
/-- STP (R207). -/
def execStp (f : FormD) (s : State) : Host.Outcome State Fault Refusal :=
  issue (.stp f) (fun t =>
    match t.dev.privLanes t.core t.blk.launch t.w.num .write (t.effLanes.map (fun l => (l, t.w.laneOffS f.off (immDisp f.imm) l))) with
    | .error e => .fault e
    | .ok (_, as) =>
      let far := as.filter (fun a => a.loc.shared)
      .ok ((t.touchLanes (if far.isEmpty then none else some t.blk.launch.stackObj) far).pushStores
        (as.map (fun a => (a.loc, leBytes 4 (t.w.rv f.data.toNat a.lane).toNat))) none (ordD f) (scoD f 0))) s
/-- LDS (R211). -/
def execLds (f : FormD) (s : State) : Host.Outcome State Fault Refusal :=
  issue (.lds f) (fun t => t.scratchAcc 4 (t.offsD f) (fun as => t.loadPlaces none (.v f.data.toNat 1) as (ordD f) (scoD f 2))) s
/-- STS (R211). -/
def execSts (f : FormD) (s : State) : Host.Outcome State Fault Refusal :=
  issue (.sts f) (fun t =>
    t.scratchAcc 4 (t.offsD f) (fun as => t.storePlaces none (fun l => (t.w.rv f.data.toNat l).toNat) as (ordD f) (scoD f 2))) s
/-- LDG (R216). -/
def execLdg (f : FormD) (s : State) : Host.Outcome State Fault Refusal :=
  issue (.ldg f) (fun t =>
    let n := objNum f.obj f.ext
    t.gangAcc n .read (t.offsD f) (fun as => t.loadPlaces (some n) (.v f.data.toNat 1) as (ordD f) (scoD f 3))) s
/-- STG (R216). -/
def execStg (f : FormD) (s : State) : Host.Outcome State Fault Refusal :=
  issue (.stg f) (fun t =>
    let n := objNum f.obj f.ext
    t.gangAcc n .write (t.offsD f) (fun as => t.storePlaces (some n) (fun l => (t.w.rv f.data.toNat l).toNat) as (ordD f) (scoD f 3))) s
/-- LDU: 64 bits at the offset of the lowest lane (R271). -/
def execLdu (f : FormD) (s : State) : Host.Outcome State Fault Refusal :=
  issue (.ldu f) (fun t =>
    t.loadObj (objNum f.obj f.ext) 8 (.s (f.data.toNat % 64)) ((t.offsD f).take 1) (ordD f) (scoD f 4)) s
/-- STU (R271). -/
def execStu (f : FormD) (s : State) : Host.Outcome State Fault Refusal :=
  issue (.stu f) (fun t =>
    t.storeObj (objNum f.obj f.ext) 8 (fun _ => (t.w.rs (f.data.toNat % 64)).toNat) ((t.offsD f).take 1) (ordD f) (scoD f 4)) s
/-- PREF changes no architectural state (R273). -/
def execPref (f : FormD) (s : State) : Host.Outcome State Fault Refusal := issue (.pref f) .ok s

/-- FPUT: appends the lanes of E in ascending order once there is room (R272). -/
def execFput (f : FormD) (s : State) : Host.Outcome State Fault Refusal :=
  issue (.fput f) (fun t =>
    t.fifoAcc f.obj.toNat true (isRelease (ordD f) && wideScope (scoD f 2) && !t.drained)
      (fun r => r.words.length + t.effLanes.length ≤ 4096)
      (fun t1 r => .ok { t1 with blk := t1.blk.setRing { r with words := r.words ++ t.effLanes.map (t.w.rv f.data.toNat) } })) s
/-- FGET: removes one entry for each lane of E once the ring holds them (R272). An entry that holds an uncorrectable
error raises class 0x0E (R437). -/
def execFget (f : FormD) (s : State) : Host.Outcome State Fault Refusal :=
  issue (.fget f) (fun t =>
    let k := f.obj.toNat
    let n := t.effLanes.length
    t.fifoAcc k false (t.scHolds (ordD f) (scoD f 2)) (fun r => n ≤ r.words.length)
      (fun t0 r =>
        let t1 : View := { t0 with blk := t0.blk.setRing { r with head := (r.head + n) % 4096, words := r.words.drop n } }
        let marks := (List.range n).filter (fun i => t.dev.bad.contains (.fifo t.core k i))
        if !marks.isEmpty then .fault (flt 0x0E 0x00) else
        let d1 : State := { t.dev with bad := t.dev.bad.filterMap (fun p =>
          match p with
          | .fifo c b i => if c == t.core && b == k then (if i < n then none else some (.fifo c b (i - n))) else some p
          | _ => some p) }
        let val (l : Nat) : Word32 := r.words.getD (t.effLanes.findIdx (fun x => x == l)) 0
        .ok { t1 with dev := d1, w := t.w.wvEach f.data.toNat val t.effLanes })) s

/-- FENCE: a region entry; it is pending while earlier events that it covers are not performed, and the warp goes on (R251, R252,
R280). -/
def execFence (f : FormH) (s : State) : Host.Outcome State Fault Refusal :=
  issue (.fence f) (fun t =>
    let ord := f.fn.extractLsb' 0 3
    let sco := f.fn.extractLsb' 3 3
    if !t.mayPass then .wait
    else
      match t.enterAfter with
      | .ok t1 =>
        if t1.fencePends ord sco then
          .ok (t1.setW { t1.w with
            buf := t1.w.buf ++ [.fence]
            fence := some { seq := t1.w.seq, resume := t1.w.ckpt.resume, order := ord, scope := sco, watch := [], hit := false, rollbacks := 0,
                            prior := (t1.w.fence.map (fun x => x.prior ++ [(x.seq, x.order)])).getD [] } })
        else .ok t1
      | r => r) s

/-- CCTL.ifetch: the cores drop their fetched code of the range (R293, R104). -/
def execCctlIfetch (f : FormH) (s : State) : Host.Outcome State Fault Refusal :=
  issue (.cctlIfetch f) (fun t => t.cctl f State.dropCode) s
/-- CCTL.flush: the sectors of the range are written back and leave the home slices (R293, R234). -/
def execCctlFlush (f : FormH) (s : State) : Host.Outcome State Fault Refusal :=
  issue (.cctlFlush f) (fun t => t.cctl f (fun s ctx lo n => s.onHome ctx lo n State.evict)) s
/-- CCTL.wb: the dirty sectors of the range are written back (R293, R234). -/
def execCctlWb (f : FormH) (s : State) : Host.Outcome State Fault Refusal :=
  issue (.cctlWb f) (fun t => t.cctl f (fun s ctx lo n => s.onHome ctx lo n State.clean)) s

/-- The bank modes that the changes in flight leave (R294). -/
def Block.modesToBe (b : Block) : Cells 2 := b.bankChanges.foldl (fun m c => newModes m c.banks c.mode 48) b.bankMode

/-- BANKCFG: the change is in flight until it completes, and the warp goes on (R214, R215, R294). One that meets earlier changes in
flight is judged by the modes that they leave (R210; log entry 65). -/
def execBankcfg (f : FormH) (s : State) : Host.Outcome State Fault Refusal :=
  issue (.bankcfg f) (fun t =>
    let x := t.w.rs f.sa
    let mode := f.fn.extractLsb' 0 2
    let banks := x.extractLsb' 0 48
    if x.extractLsb' 48 16 != 0 then .fault (flt 0x02 0x07)
    else if banks == 0 then .ok t
    else if !layoutOk (newModes t.blk.modesToBe banks mode 48) then .fault (flt 0x02 0x07)
    else .ok { t with
      blk := { t.blk with bankChanges := t.blk.bankChanges ++ [{ warp := t.w.num, seq := t.w.seq, banks := banks, mode := mode }] }
      w := { t.w with seq := t.w.seq + 1 } }) s

end Sys2Proof.Machine
end

