-- ==== Sys2Proof/Machine/Atomics.lean ====
section
/-!
DEFINITION. Atomics and reader-writer locks (spec 11 R274 to R279; spec 10 R242). An atomic is checked as it
issues; its lanes' read-modify-writes are performed by ATOMIC_RESPONSE.
-/
namespace Sys2Proof.Machine

/-! ### New values (R274) -/

/-- Applies an operation to the two halves of a word. -/
def halfWise (op : Nat → Nat → Nat) (x y : Nat) : Nat :=
  op (x % 2 ^ 16) (y % 2 ^ 16) % 2 ^ 16 + 2 ^ 16 * (op (x / 2 ^ 16) (y / 2 ^ 16) % 2 ^ 16)

/-- The sum of two words in a type (R274): integers wrap, .f32 and each .bf16 half round once. -/
def addTyped (typ : BitVec 4) (old v : Nat) : Nat :=
  if typ == 0 then (fmtF32.addBits old v).val
  else if typ == 2 then halfWise (fun x y => (fmtBF16.addBits x y).val) old v
  else (old + v) % (if typ == 12 || typ == 13 then 2 ^ 64 else 2 ^ 32)

/-- The lesser or greater of two words in a type (R274). -/
def minMaxTyped (mx : Bool) (typ : BitVec 4) (old v : Nat) : Nat :=
  if typ == 0 then (fmtF32.minMax mx old v).val
  else
    let w := if typ == 12 || typ == 13 then 64 else 32
    let key (x : Nat) : Int := if typ == 10 || typ == 12 then (BitVec.ofNat w x).toInt else (x : Int)
    if mx then (if key old < key v then v else old) else (if key v < key old then v else old)

/-- The byte mask M of .ins (R274). -/
def insMask (m : BitVec 4) : Nat := ((List.range 4).map (fun k => if m.getLsbD k then 255 * 2 ^ (8 * k) else 0)).sum

/-- New(old, v) of ATOM and ATOMS (R274). -/
def atomNew (opr : Nat) (typ m : BitVec 4) (old v : Nat) : Nat :=
  match opr with
  | 0 => addTyped typ old v
  | 1 => minMaxTyped false typ old v
  | 2 => minMaxTyped true typ old v
  | 3 => old &&& v
  | 4 => old ||| v
  | 5 => old ^^^ v
  | 6 => v
  | _ => let M := insMask m; (old &&& (2 ^ 32 - 1 - M)) ||| (v &&& M)

/-! ### Lock words (R278) -/

/-- A lock word. -/
structure Lock where
  rc : Nat
  wh : Bool
  wp : Bool
  ww : Nat
  ob : Nat
  deriving DecidableEq, Repr

def Lock.ofNat (x : Nat) : Lock :=
  { rc := x % 2 ^ 32, wh := x.testBit 32, wp := x.testBit 33, ww := x / 2 ^ 34 % 2 ^ 14, ob := x / 2 ^ 48 % 2 ^ 16 }

def Lock.toNat (l : Lock) : Nat :=
  l.rc + (if l.wh then 2 ^ 32 else 0) + (if l.wp then 2 ^ 33 else 0) + 2 ^ 34 * l.ww + 2 ^ 48 * l.ob

/-- What an RMW does: the new word when it writes one, and its success (R242, R279). -/
structure Rmw where
  new : Option Nat
  ok : Bool
  deriving DecidableEq, Repr

/-- A lock operation's change when it has one. -/
def Lock.rmw (old new : Lock) (ok : Bool) : Rmw := { new := if old == new then none else some new.toNat, ok := ok }

/-- RWLRD (R279). -/
def lockRd (l : Lock) : Rmw :=
  let ok := !l.wh && !(l.wp && 0 < l.ww) && l.rc < 2 ^ 32 - 1
  l.rmw (if ok then { l with rc := l.rc + 1 } else l) ok

/-- RWLWR with its variants try, enq, retry, cancel (R279). A field at its limit stays. -/
def lockWr (opr : Nat) (caller : Nat) (l : Lock) : Rmw :=
  let ok := opr != 3 && !l.wh && l.rc == 0
  let taken : Lock := { l with wh := true, ob := caller }
  l.rmw
    (if ok then (if opr = 2 then { taken with ww := l.ww - 1 } else taken)
     else if opr = 1 then { l with ww := min (l.ww + 1) 16383 }
     else if opr = 3 then { l with ww := l.ww - 1 }
     else l) ok

/-- RWLUP (R279). -/
def lockUp (caller : Nat) (l : Lock) : Rmw :=
  let ok := l.rc == 1 && !l.wh
  l.rmw (if ok then { l with rc := 0, wh := true, ob := caller } else l) ok

/-- RWLREL: rd, wr, down (R279). -/
def lockRel (opr : Nat) (caller : Nat) (l : Lock) : Rmw :=
  let mine := l.wh && l.ob == caller
  if opr = 0 then l.rmw { l with rc := l.rc - 1 } (0 < l.rc)
  else if opr = 1 then l.rmw (if mine then { l with wh := false, ob := 0 } else l) mine
  else l.rmw (if mine then { l with wh := false, ob := 0, rc := 1 } else l) mine

/-! ### The RMW of a lane -/

/-- The value of `n` registers from v(r) on of a lane, the lowest register lowest. -/
def Warp.rvNat (w : Warp) (r l : Nat) : Nat → Nat
  | 0 => 0
  | n + 1 => (w.rv r l).toNat + 2 ^ 32 * Warp.rvNat w (r + 1) l n

/-- Writes `n` registers of a lane. -/
def Warp.wvNat (w : Warp) (r l x : Nat) : Nat → Warp
  | 0 => w
  | n + 1 => Warp.wvNat (w.wv r l (BitVec.ofNat 32 x)) (r + 1) l (x / 2 ^ 32) n

/-- The value register of an atomic, X[6:0]. -/
def xRegOf (f : FormE) : Nat := (f.x.extractLsb' 0 7).toNat

/-- A compare and exchange (R275, R276). -/
def casRmw (old expect new : Nat) : Rmw := { new := if old == expect then some new else none, ok := old == expect }

/-- The value and the comparand of lane `l` of an atomic, as it issues (R274 to R276). -/
def Warp.laneArgs (w : Warp) (i : Instr) (l : Nat) : Nat × Nat :=
  match i with
  | .atom f | .atoms f => (w.rvNat (xRegOf f) l (typWords f.typ), 0)
  | .atomc f => (w.rvNat (xRegOf f) l (typWords f.typ), w.rvNat f.d.toNat l (typWords f.typ))
  | .atomx f => (w.rvNat (xRegOf f) l 4, w.rvNat f.d.toNat l 4)
  | _ => (0, 0)

/-- The RMW of a lane of an atomic on the old value (R274 to R279); `x` are its value and comparand, `blk` is sr.block of the
caller. -/
def laneRmw (i : Instr) (blk : Word32) (x : Nat × Nat) (old : Nat) : Rmw :=
  let caller := blk.toNat % 2 ^ 16
  match i with
  | .atom f | .atoms f => { new := some (atomNew f.opr.toNat f.typ (f.x.extractLsb' 7 4) old x.1), ok := true }
  | .atomc _ => casRmw old x.2 x.1
  | .atomx f => if f.opr == 0 then casRmw old x.2 x.1 else { new := some x.1, ok := true }
  | .rwlrd _ => lockRd (.ofNat old)
  | .rwlwr f => lockWr f.opr.toNat caller (.ofNat old)
  | .rwlup _ => lockUp caller (.ofNat old)
  | .rwlrel f => lockRel f.opr.toNat caller (.ofNat old)
  | _ => { new := none, ok := false }

/-- What a performed lane delivers to the warp's registers (R274 to R276, R279). -/
def Warp.deliverRmw (w : Warp) (i : Instr) (blk : Word32) (l old : Nat) : Warp :=
  let pd (f : FormE) : Warp :=
    w.wp (f.sub.extractLsb' 0 3).toNat (1#32 <<< l) (if (laneRmw i blk (0, 0) old).ok then 0xFFFFFFFF else 0)
  match i with
  | .atom f | .atoms f => if f.sub.getLsbD 0 then w.wvNat f.d.toNat l old (typWords f.typ) else w
  | .atomc f => w.wvNat f.d.toNat l old (typWords f.typ)
  | .atomx f => w.wvNat f.d.toNat l old 4
  | .rwlrd f => pd f
  | .rwlwr f => pd f
  | .rwlup f => pd f
  | _ => w

/-! ### Issue -/

/-- The lane offsets of a form E access. -/
def View.offsE (t : View) (f : FormE) : List (Nat × Int) := t.effLanes.map (fun l => (l, t.w.laneOff f.a (immDisp f.imm) l))

/-- A switch point with a region entry after it (R30, R33): the ring is switched, then the entry is taken. -/
def View.switchEnter (t : View) : Res :=
  let resume := (t.w.running.map Split.pc).getD 0
  match t.putRing (switchRing t.w.ring) with
  | .error f => .fault f
  | .ok t1 => t1.enter resume

/-- The atomic is under way at resolved lanes; its requests to other devices are sent (R274, R373). -/
def View.pushAtomic (t : View) (i : Instr) (size : Nat) (ps : List LanePlace) : View :=
  let homes := addAll [] (ps.filterMap (fun p =>
    match p.loc with
    | .remote h _ => some h
    | _ => none))
  let o : Op :=
    { seq := t.w.seq, pc := t.pc, instr := i, since := t.dev.clock,
      body := .atomic size t.eff ps (ps.map (fun p => (p.lane, t.w.laneArgs i p.lane))) }
  { t with
    dev := homes.foldl (fun s h => s.newRequest t.core t.w.num h (.atomic t.w.seq) none) t.dev
    w := { t.w with seq := t.w.seq + 1, ops := t.w.ops ++ [o] } }

/-- An atomic through an object: its checks, then it is under way, and the switch point and the region entry after it follow (R30,
R33, R274). -/
def View.startAtomic (t : View) (i : Instr) (f : FormE) (spaces : List Nat) (size : Nat) : Res :=
  let l := t.blk.launch
  let n := objNum f.obj f.ext
  match t.dev.objLanes t.core l.ctx l.sys n spaces .rmw false size (t.offsE f) with
  | .error e => .fault e
  | .ok (_, as) =>
    if !t.mayEnter || t.commitHolds as then .wait
    else ((t.touchLanes (some n) as).pushAtomic i size (as.map (fun a => a.place true))).fallThrough.switchEnter

/-! ### Meanings -/

/-- ATOM (R274). -/
def execAtom (f : FormE) (s : State) : Host.Outcome State Fault Refusal :=
  issue (.atom f) (fun t => t.startAtomic (.atom f) f objSpaces (4 * typWords f.typ)) s
/-- ATOMS: on the scratchpad, no region entry (R274). -/
def execAtoms (f : FormE) (s : State) : Host.Outcome State Fault Refusal :=
  issue (.atoms f) (fun t =>
    let size := 4 * typWords f.typ
    t.scratchAcc size (t.offsE f) (fun as =>
      if t.w.fence.isSome then .wait
      else .ok (t.pushAtomic (.atoms f) size (as.map (fun a => a.place false))))) s
/-- ATOMC (R275). Which object spaces it accepts is not stated: those of ATOM (log entry 66). -/
def execAtomc (f : FormE) (s : State) : Host.Outcome State Fault Refusal :=
  issue (.atomc f) (fun t => t.startAtomic (.atomc f) f objSpaces (4 * typWords f.typ)) s
/-- ATOMX: global or aperture (R276). -/
def execAtomx (f : FormE) (s : State) : Host.Outcome State Fault Refusal :=
  issue (.atomx f) (fun t => t.startAtomic (.atomx f) f [0, 2] 16) s
/-- RWLRD (R279). -/
def execRwlrd (f : FormE) (s : State) : Host.Outcome State Fault Refusal :=
  issue (.rwlrd f) (fun t => t.startAtomic (.rwlrd f) f [0, 2] 8) s
/-- RWLWR (R279). -/
def execRwlwr (f : FormE) (s : State) : Host.Outcome State Fault Refusal :=
  issue (.rwlwr f) (fun t => t.startAtomic (.rwlwr f) f [0, 2] 8) s
/-- RWLUP (R279). -/
def execRwlup (f : FormE) (s : State) : Host.Outcome State Fault Refusal :=
  issue (.rwlup f) (fun t => t.startAtomic (.rwlup f) f [0, 2] 8) s
/-- RWLREL (R279). -/
def execRwlrel (f : FormE) (s : State) : Host.Outcome State Fault Refusal :=
  issue (.rwlrel f) (fun t => t.startAtomic (.rwlrel f) f [0, 2] 8) s

/-- SPADD: the additions are buffered like stores; a switch point and a region entry after it (R277, R30, R33). -/
def execSpadd (f : FormE) (s : State) : Host.Outcome State Fault Refusal :=
  issue (.spadd f) (fun t =>
    let n := objNum f.obj f.ext
    t.gangAcc n .rmw (t.offsE f) (fun as =>
      if !t.mayEnter then .wait
      else
        let t1 := (t.touchLanes (some n) as).pushStores
          (as.map (fun a => (a.loc, leBytes 4 (t.w.rv f.d.toNat a.lane).toNat))) (some f.typ) f.ord f.sco
        t1.fallThrough.switchEnter)) s

end Sys2Proof.Machine
end

