-- ==== Sys2Proof/Decode.lean ====
section
/-!
DEFINITION. Decoding of instruction words and the encoder (spec 04 R80, R88 to R101). Decoding is total:
words that are no instruction become the rows ILLEGAL_INSTRUCTION and ILLEGAL_ENCODING, with the detail
of R431 and the word at which the fault lies.
-/
namespace Sys2Proof

/-- The opcode byte of a word (R99). -/
def opByte (w : Word32) : Nat := (w.extractLsb' 24 8).toNat

/-- Form A fields of a base word (R88). -/
def FormA.read (w : Word32) : FormA :=
  { d := w.extractLsb' 17 7, a := w.extractLsb' 10 7, b := w.extractLsb' 3 7, var := w.extractLsb' 1 2, bs := w.extractLsb' 0 1 }
/-- Form B fields of a base word. -/
def FormB.read (w : Word32) (imm : Option (BitVec 24)) : FormB :=
  { d := w.extractLsb' 17 7, a := w.extractLsb' 10 7, imm10 := w.extractLsb' 0 10, imm := imm }
/-- Form C fields of a base word. -/
def FormC.read (w : Word32) (imm : Option (BitVec 24)) : FormC :=
  { d := w.extractLsb' 18 6, a := w.extractLsb' 12 6, b := w.extractLsb' 6 6, fn := w.extractLsb' 0 6, imm := imm }
/-- Form D fields of a base word. -/
def FormD.read (w : Word32) (imm ext : Option (BitVec 24)) : FormD :=
  { data := w.extractLsb' 17 7, off := w.extractLsb' 10 7, obj := w.extractLsb' 4 6, la := w.extractLsb' 0 4, imm := imm, ext := ext }
/-- Form E fields of a base word and its extension word `x` (R91). -/
def FormE.read (w x : Word32) (imm ext : Option (BitVec 24)) : FormE :=
  { d := w.extractLsb' 17 7, a := w.extractLsb' 10 7, obj := w.extractLsb' 4 6, sub := w.extractLsb' 0 4,
    ord := x.extractLsb' 29 3, sco := x.extractLsb' 26 3, opr := x.extractLsb' 21 5, typ := x.extractLsb' 17 4,
    la := x.extractLsb' 13 4, x := x.extractLsb' 0 13, imm := imm, ext := ext }
/-- Form F fields of a base word (R93). -/
def FormF.read (w : Word32) : FormF :=
  { hd := w.extractLsb' 19 5, ha := w.extractLsb' 14 5, hb := w.extractLsb' 9 5, la := w.extractLsb' 5 4, mods := w.extractLsb' 0 5 }
/-- Form G fields of a base word. -/
def FormG.read (w : Word32) (imm : Option (BitVec 24)) : FormG :=
  { pred := w.extractLsb' 21 3, neg := w.extractLsb' 20 1, off := w.extractLsb' 0 20, imm := imm }
/-- Form W fields of a base word. -/
def FormW.read (w : Word32) : FormW :=
  { d := w.extractLsb' 17 7, a := w.extractLsb' 10 7, wd := w.extractLsb' 8 2, wa := w.extractLsb' 6 2, sel := w.extractLsb' 0 6 }
/-- Form H fields of a base word. -/
def FormH.read (w : Word32) (imm ext : Option (BitVec 24)) : FormH :=
  { d := w.extractLsb' 19 5, a := w.extractLsb' 14 5, b := w.extractLsb' 9 5, fn := w.extractLsb' 0 9, imm := imm, ext := ext }

/-- Form E opcodes, whose base word has an extension word after it (R80, R99). -/
def hasExtWord (op : Nat) : Bool :=
  [0x58, 0x5B, 0x5D, 0x68, 0x69, 0x6A, 0x6B, 0x6C, 0x6D, 0x6E, 0x6F, 0x71, 0x72, 0x74, 0x7D, 0xA2, 0xA3, 0xA5, 0xA6].contains op

/-- The instruction of a base word, with its extension word (zero when it has none) and the payloads of the
first prefix of each kind. The opcode map of R99; `none` for 0xB0 to 0xFF and the prefixes. -/
def ofBase (w x : Word32) (imm ext : Option (BitVec 24)) : Option Instr :=
  match opByte w with
  | 0x00 => some (.sadd (.read w imm))
  | 0x01 => some (.ssub (.read w imm))
  | 0x02 => some (.smul (.read w imm))
  | 0x03 => some (.smulh (.read w imm))
  | 0x04 => some (.sdiv (.read w imm))
  | 0x05 => some (.srem (.read w imm))
  | 0x06 => some (.sand (.read w imm))
  | 0x07 => some (.sor (.read w imm))
  | 0x08 => some (.sxor (.read w imm))
  | 0x09 => some (.sshl (.read w imm))
  | 0x0A => some (.sshr (.read w imm))
  | 0x0B => some (.ssra (.read w imm))
  | 0x0C => some (.smin (.read w imm))
  | 0x0D => some (.smax (.read w imm))
  | 0x0E => some (.scmp (.read w imm))
  | 0x0F => some (.ssel (.read w imm))
  | 0x10 => some (.smov (.read w imm))
  | 0x11 => some (.sli (.read w imm))
  | 0x12 => some (.saddr (.read w imm))
  | 0x13 => some (.sclz (.read w imm))
  | 0x14 => some (.spopc (.read w imm))
  | 0x15 => some (.sbfe (.read w imm))
  | 0x16 => some (.sbfi (.read w imm))
  | 0x17 => some (.sget (.read w imm))
  | 0x18 => some (.bra (.read w imm))
  | 0x19 => some (.br (.read w imm))
  | 0x1A => some (.brx (.read w))
  | 0x1B => some (.call (.read w imm))
  | 0x1C => some (.callx (.read w))
  | 0x1D => some (.ret (.read w imm ext))
  | 0x1E => some (.retv (.read w))
  | 0x1F => some (.loop (.read w imm))
  | 0x20 => some (.yield (.read w imm ext))
  | 0x21 => some (.region (.read w imm ext))
  | 0x22 => some (.reconv (.read w imm))
  | 0x23 => some (.bsync (.read w imm ext))
  | 0x24 => some (.trap (.read w imm ext))
  | 0x25 => some (.sleep (.read w imm ext))
  | 0x26 => some (.getpc (.read w imm))
  | 0x27 => some (.nop (.read w imm ext))
  | 0x28 => some (.vadd (.read w))
  | 0x29 => some (.vsub (.read w))
  | 0x2A => some (.vmul (.read w))
  | 0x2B => some (.vmulh (.read w))
  | 0x2C => some (.vmad (.read w))
  | 0x2D => some (.vmin (.read w))
  | 0x2E => some (.vmax (.read w))
  | 0x2F => some (.vabs (.read w))
  | 0x30 => some (.vand (.read w))
  | 0x31 => some (.vor (.read w))
  | 0x32 => some (.vxor (.read w))
  | 0x33 => some (.vshl (.read w))
  | 0x34 => some (.vshr (.read w))
  | 0x35 => some (.vsra (.read w))
  | 0x36 => some (.vsrar (.read w))
  | 0x37 => some (.vadds (.read w))
  | 0x38 => some (.vsubs (.read w))
  | 0x39 => some (.vdot2s (.read w))
  | 0x3A => some (.vcmp (.read w))
  | 0x3B => some (.vsel (.read w))
  | 0x3C => some (.vmov (.read w))
  | 0x3D => some (.vli (.read w imm))
  | 0x3E => some (.vbfe (.read w))
  | 0x3F => some (.vpopc (.read w))
  | 0x40 => some (.fadd (.read w))
  | 0x41 => some (.fsub (.read w))
  | 0x42 => some (.fmul (.read w))
  | 0x43 => some (.ffma (.read w))
  | 0x44 => some (.fmin (.read w))
  | 0x45 => some (.fmax (.read w))
  | 0x46 => some (.fcmp (.read w))
  | 0x47 => some (.frcp (.read w))
  | 0x48 => some (.frsq (.read w))
  | 0x49 => some (.fexp2 (.read w))
  | 0x4A => some (.flog2 (.read w))
  | 0x4B => some (.fcvt (.read w))
  | 0x4C => some (.icvt (.read w))
  | 0x4D => some (.pkadd (.read w))
  | 0x4E => some (.pkfma (.read w))
  | 0x4F => some (.fclass (.read w))
  | 0x50 => some (.vslide (.read w))
  | 0x51 => some (.vshuf (.read w))
  | 0x52 => some (.vbcast (.read w))
  | 0x53 => some (.vreduce (.read w))
  | 0x54 => some (.vscan (.read w))
  | 0x55 => some (.vote (.read w))
  | 0x56 => some (.pset (.read w))
  | 0x57 => some (.pmov (.read w))
  | 0x58 => some (.xcvt (.read w x imm ext))
  | 0x59 => some (.xpack (.read w))
  | 0x5A => some (.xunpack (.read w))
  | 0x5B => some (.xtopk (.read w x imm ext))
  | 0x5C => some (.xcrc (.read w))
  | 0x5D => some (.xsort (.read w x imm ext))
  | 0x5E => some (.vmatch (.read w))
  | 0x5F => some (.vlane (.read w))
  | 0x60 => some (.ld (.read w imm ext))
  | 0x61 => some (.st (.read w imm ext))
  | 0x62 => some (.ldp (.read w imm ext))
  | 0x63 => some (.stp (.read w imm ext))
  | 0x64 => some (.lds (.read w imm ext))
  | 0x65 => some (.sts (.read w imm ext))
  | 0x66 => some (.ldg (.read w imm ext))
  | 0x67 => some (.stg (.read w imm ext))
  | 0x68 => some (.spadd (.read w x imm ext))
  | 0x69 => some (.atom (.read w x imm ext))
  | 0x6A => some (.atomc (.read w x imm ext))
  | 0x6B => some (.atoms (.read w x imm ext))
  | 0x6C => some (.rwlrd (.read w x imm ext))
  | 0x6D => some (.rwlwr (.read w x imm ext))
  | 0x6E => some (.rwlup (.read w x imm ext))
  | 0x6F => some (.rwlrel (.read w x imm ext))
  | 0x70 => some (.fence (.read w imm ext))
  | 0x71 => some (.cpy (.read w x imm ext))
  | 0x72 => some (.cpyg (.read w x imm ext))
  | 0x73 => some (.cpyw (.read w imm ext))
  | 0x74 => some (.dst (.read w x imm ext))
  | 0x75 => some (.commit (.read w imm ext))
  | 0x76 => some (.pref (.read w imm ext))
  | 0x77 => some (match (w.extractLsb' 0 9).toNat with
    | 0 => .cctlIfetch (.read w imm ext)
    | 1 => .cctlFlush (.read w imm ext)
    | 2 => .cctlWb (.read w imm ext)
    | _ => .illegalEncoding 0x00 0)
  | 0x78 => some (.bankcfg (.read w imm ext))
  | 0x79 => some (.fput (.read w imm ext))
  | 0x7A => some (.fget (.read w imm ext))
  | 0x7B => some (.ldu (.read w imm ext))
  | 0x7C => some (.stu (.read w imm ext))
  | 0x7D => some (.atomx (.read w x imm ext))
  | 0x7E => some (.talloc (.read w))
  | 0x7F => some (.tfree (.read w))
  | 0x80 => some (.thand (.read w imm ext))
  | 0x81 => some (.ttake (.read w imm ext))
  | 0x82 => some (.tld (.read w imm ext))
  | 0x83 => some (.tst (.read w imm ext))
  | 0x84 => some (.tldw (.read w))
  | 0x85 => some (.tswap (.read w))
  | 0x86 => some (.tmma (.read w))
  | 0x87 => some (.tmmac (.read w))
  | 0x88 => some (.tzero (.read w))
  | 0x89 => some (.tscale (.read w))
  | 0x8A => some (.ttrans (.read w))
  | 0x8B => some (.tcvt (.read w imm ext))
  | 0x8C => some (.tquant (.read w imm ext))
  | 0x8D => some (.tadd (.read w))
  | 0x8E => some (.tmul (.read w))
  | 0x8F => some (.tred (.read w))
  | 0x90 => some (.tabsmax (.read w))
  | 0x91 => some (.tgetrow (.read w imm ext))
  | 0x92 => some (.tsetrow (.read w imm ext))
  | 0x93 => some (.tdrain (.read w imm ext))
  | 0x94 => some (.barinit (.read w imm ext))
  | 0x95 => some (.barenrol (.read w imm ext))
  | 0x96 => some (.bararrive (.read w imm ext))
  | 0x97 => some (.barexpect (.read w imm ext))
  | 0x98 => some (.barwait (.read w imm ext))
  | 0x99 => some (.stamptry (.read w imm ext))
  | 0x9A => some (.stampset (.read w imm ext))
  | 0x9B => some (match (w.extractLsb' 0 3).toNat with
    | 0 => .perfCtr (.read w imm ext)
    | 1 => .perfMcfg (.read w imm ext)
    | 2 => .perfMrd (.read w imm ext)
    | 3 => .perfMclr (.read w imm ext)
    | _ => .illegalEncoding 0x00 0)
  | 0x9C => some (.spawn (.read w imm ext))
  | 0x9D => some (.launch (.read w imm ext))
  | 0x9E => some (.join (.read w imm ext))
  | 0x9F => some (.exit (.read w imm ext))
  | 0xA0 => some (.qdepth (.read w imm ext))
  | 0xA1 => some (.park (.read w imm ext))
  | 0xA2 => some (.collpush (.read w x imm ext))
  | 0xA3 => some (.collpull (.read w x imm ext))
  | 0xA4 => some (match (w.extractLsb' 0 9).toNat with
    | 0 => .collwait (.read w imm ext)
    | 1 => .collwaitStat (.read w imm ext)
    | _ => .illegalEncoding 0x00 0)
  | 0xA5 => some (.netst (.read w x imm ext))
  | 0xA6 => some (.netld (.read w x imm ext))
  | 0xA7 => some (if w.getLsbD 8 then .collgrpClr (.read w imm ext) else .collgrp (.read w imm ext))
  | 0xA8 => some (if w.getLsbD 0 then .objsetClr (.read w imm ext) else .objset (.read w imm ext))
  | 0xA9 => some (.objget (.read w imm ext))
  | 0xAA => some (.rwload (.read w imm ext))
  | 0xAB => some (.feat (.read w imm))
  | 0xAC => some (match (w.extractLsb' 0 2).toNat with
    | 0 => .tlbinvVa (.read w imm ext)
    | 1 => .tlbinvAll (.read w imm ext)
    | 2 => .tlbinvObj (.read w imm ext)
    | _ => .illegalEncoding 0x00 0)
  | 0xAD => some (.csr (.read w imm ext))
  | _ => none

/-- The result of decoding: the instruction, how many words it takes, and which of them is its base word. -/
structure Decoded where
  instr : Instr
  len : Nat
  base : Nat
  deriving DecidableEq, Repr

/-- A prefix word: IMM or EXT with its payload. -/
inductive Prefix where
  | imm (p : BitVec 24)
  | ext (p : BitVec 24)
  deriving DecidableEq, Repr

/-- Reads a word as a prefix (R96, R97). -/
def asPrefix (w : Word32) : Option Prefix :=
  match opByte w with
  | 0xAE => some (.imm (w.extractLsb' 0 24))
  | 0xAF => some (.ext (w.extractLsb' 0 24))
  | _ => none

/-- The prefix words at the head of a list, and the words after them. -/
def takePrefixes : List Word32 → List Prefix × List Word32
  | [] => ([], [])
  | w :: r =>
    match asPrefix w with
    | none => ([], w :: r)
    | some p => let t := takePrefixes r; (p :: t.1, t.2)

/-- The payload of the first IMM prefix. -/
def firstImm : List Prefix → Option (BitVec 24)
  | [] => none
  | .imm p :: _ => some p
  | .ext _ :: r => firstImm r

/-- The payload of the first EXT prefix. -/
def firstExt : List Prefix → Option (BitVec 24)
  | [] => none
  | .ext p :: _ => some p
  | .imm _ :: r => firstExt r

/-- The position of the first illegal prefix before `i` (R98), counting from `n`. -/
def badPrefix (i : Instr) (imm ext : Bool) (n : Nat) : List Prefix → Option Nat
  | [] => none
  | .imm _ :: r => if imm || !i.immOk then some n else badPrefix i true ext (n + 1) r
  | .ext p :: r => if ext || !i.extOk p then some n else badPrefix i imm true (n + 1) r

/-- The position of the first prefix that is the second of its kind, which no opcode accepts (R98). -/
def secondPrefix (imm ext : Bool) (n : Nat) : List Prefix → Option Nat
  | [] => none
  | .imm _ :: r => if imm then some n else secondPrefix true ext (n + 1) r
  | .ext _ :: r => if ext then some n else secondPrefix imm true (n + 1) r

/-- Decodes the instruction at the head of a list of words; `none` where a word is missing or an opcode byte
in 0xF0 to 0xFF stands at an opcode position, which the clause checks refuse (R81). Prefixes alone, of which one is the second of
its kind, are an illegal prefix (R98; log entry 14). -/
def decode (ws : List Word32) : Option Decoded :=
  let pre := (takePrefixes ws).1
  let n := pre.length
  match (takePrefixes ws).2 with
  | [] => (secondPrefix false false 0 pre).map (fun k => { instr := .illegalEncoding 0x0C k, len := n, base := n })
  | w :: r =>
    if 0xF0 ≤ opByte w then none
    else if hasExtWord (opByte w) && r.isEmpty then none
    else
      let x := if hasExtWord (opByte w) then r.headD 0 else 0
      let len := n + (if hasExtWord (opByte w) then 2 else 1)
      match ofBase w x (firstImm pre) (firstExt pre) with
      | none => some { instr := .illegalInstruction 0x00 0, len := len, base := n }
      | some i =>
        match badPrefix i false false 0 pre with
        | some k => some { instr := .illegalEncoding 0x0C k, len := len, base := n }
        | none => some { instr := i, len := len, base := n }

/-- Decoding for a warp of `regs` registers: an instruction whose fields its form or description does not
allow becomes the row ILLEGAL_ENCODING at its first word (R89 to R93, R101). -/
def decodeFor (regs : Nat) (ws : List Word32) : Option Decoded :=
  (decode ws).map fun d =>
    match d.instr.fieldFault regs with
    | some det => { d with instr := .illegalEncoding det 0 }
    | none => d

/-! ### The encoder -/

/-- A base word of form A. -/
def FormA.word (op : BitVec 8) (f : FormA) : Word32 := ((((op ++ f.d) ++ f.a) ++ f.b) ++ f.var) ++ f.bs
/-- A base word of form B. -/
def FormB.word (op : BitVec 8) (f : FormB) : Word32 := ((op ++ f.d) ++ f.a) ++ f.imm10
/-- A base word of form C. -/
def FormC.word (op : BitVec 8) (f : FormC) : Word32 := (((op ++ f.d) ++ f.a) ++ f.b) ++ f.fn
/-- A base word of form D. -/
def FormD.word (op : BitVec 8) (f : FormD) : Word32 := (((op ++ f.data) ++ f.off) ++ f.obj) ++ f.la
/-- A base word of form E. -/
def FormE.word (op : BitVec 8) (f : FormE) : Word32 := (((op ++ f.d) ++ f.a) ++ f.obj) ++ f.sub
/-- The extension word of form E (R91). -/
def FormE.extWord (f : FormE) : Word32 := ((((f.ord ++ f.sco) ++ f.opr) ++ f.typ) ++ f.la) ++ f.x
/-- A base word of form F. -/
def FormF.word (op : BitVec 8) (f : FormF) : Word32 := ((((op ++ f.hd) ++ f.ha) ++ f.hb) ++ f.la) ++ f.mods
/-- A base word of form G. -/
def FormG.word (op : BitVec 8) (f : FormG) : Word32 := ((op ++ f.pred) ++ f.neg) ++ f.off
/-- A base word of form W. -/
def FormW.word (op : BitVec 8) (f : FormW) : Word32 := ((((op ++ f.d) ++ f.a) ++ f.wd) ++ f.wa) ++ f.sel
/-- A base word of form H. -/
def FormH.word (op : BitVec 8) (f : FormH) : Word32 := (((op ++ f.d) ++ f.a) ++ f.b) ++ f.fn

/-- Prefix words, IMM first; either order is legal (R98). -/
def prefixWords (imm ext : Option (BitVec 24)) : List Word32 :=
  (imm.map fun p => (0xAE#8 ++ p : Word32)).toList ++ (ext.map fun p => (0xAF#8 ++ p : Word32)).toList

/-- The base word of an instruction, and its extension word where its form has one (R88, R91, R99). -/
def baseWords : Instr → List Word32
  | .sadd f => [f.word 0x00]
  | .ssub f => [f.word 0x01]
  | .smul f => [f.word 0x02]
  | .smulh f => [f.word 0x03]
  | .sdiv f => [f.word 0x04]
  | .srem f => [f.word 0x05]
  | .sand f => [f.word 0x06]
  | .sor f => [f.word 0x07]
  | .sxor f => [f.word 0x08]
  | .sshl f => [f.word 0x09]
  | .sshr f => [f.word 0x0A]
  | .ssra f => [f.word 0x0B]
  | .smin f => [f.word 0x0C]
  | .smax f => [f.word 0x0D]
  | .scmp f => [f.word 0x0E]
  | .ssel f => [f.word 0x0F]
  | .smov f => [f.word 0x10]
  | .sli f => [f.word 0x11]
  | .saddr f => [f.word 0x12]
  | .sclz f => [f.word 0x13]
  | .spopc f => [f.word 0x14]
  | .sbfe f => [f.word 0x15]
  | .sbfi f => [f.word 0x16]
  | .sget f => [f.word 0x17]
  | .bra f => [f.word 0x18]
  | .br f => [f.word 0x19]
  | .brx f => [f.word 0x1A]
  | .call f => [f.word 0x1B]
  | .callx f => [f.word 0x1C]
  | .ret f => [f.word 0x1D]
  | .retv f => [f.word 0x1E]
  | .loop f => [f.word 0x1F]
  | .yield f => [f.word 0x20]
  | .region f => [f.word 0x21]
  | .reconv f => [f.word 0x22]
  | .bsync f => [f.word 0x23]
  | .trap f => [f.word 0x24]
  | .sleep f => [f.word 0x25]
  | .getpc f => [f.word 0x26]
  | .nop f => [f.word 0x27]
  | .vadd f => [f.word 0x28]
  | .vsub f => [f.word 0x29]
  | .vmul f => [f.word 0x2A]
  | .vmulh f => [f.word 0x2B]
  | .vmad f => [f.word 0x2C]
  | .vmin f => [f.word 0x2D]
  | .vmax f => [f.word 0x2E]
  | .vabs f => [f.word 0x2F]
  | .vand f => [f.word 0x30]
  | .vor f => [f.word 0x31]
  | .vxor f => [f.word 0x32]
  | .vshl f => [f.word 0x33]
  | .vshr f => [f.word 0x34]
  | .vsra f => [f.word 0x35]
  | .vsrar f => [f.word 0x36]
  | .vadds f => [f.word 0x37]
  | .vsubs f => [f.word 0x38]
  | .vdot2s f => [f.word 0x39]
  | .vcmp f => [f.word 0x3A]
  | .vsel f => [f.word 0x3B]
  | .vmov f => [f.word 0x3C]
  | .vli f => [f.word 0x3D]
  | .vbfe f => [f.word 0x3E]
  | .vpopc f => [f.word 0x3F]
  | .fadd f => [f.word 0x40]
  | .fsub f => [f.word 0x41]
  | .fmul f => [f.word 0x42]
  | .ffma f => [f.word 0x43]
  | .fmin f => [f.word 0x44]
  | .fmax f => [f.word 0x45]
  | .fcmp f => [f.word 0x46]
  | .frcp f => [f.word 0x47]
  | .frsq f => [f.word 0x48]
  | .fexp2 f => [f.word 0x49]
  | .flog2 f => [f.word 0x4A]
  | .fcvt f => [f.word 0x4B]
  | .icvt f => [f.word 0x4C]
  | .pkadd f => [f.word 0x4D]
  | .pkfma f => [f.word 0x4E]
  | .fclass f => [f.word 0x4F]
  | .vslide f => [f.word 0x50]
  | .vshuf f => [f.word 0x51]
  | .vbcast f => [f.word 0x52]
  | .vreduce f => [f.word 0x53]
  | .vscan f => [f.word 0x54]
  | .vote f => [f.word 0x55]
  | .pset f => [f.word 0x56]
  | .pmov f => [f.word 0x57]
  | .xcvt f => [f.word 0x58, f.extWord]
  | .xpack f => [f.word 0x59]
  | .xunpack f => [f.word 0x5A]
  | .xtopk f => [f.word 0x5B, f.extWord]
  | .xcrc f => [f.word 0x5C]
  | .xsort f => [f.word 0x5D, f.extWord]
  | .vmatch f => [f.word 0x5E]
  | .vlane f => [f.word 0x5F]
  | .ld f => [f.word 0x60]
  | .st f => [f.word 0x61]
  | .ldp f => [f.word 0x62]
  | .stp f => [f.word 0x63]
  | .lds f => [f.word 0x64]
  | .sts f => [f.word 0x65]
  | .ldg f => [f.word 0x66]
  | .stg f => [f.word 0x67]
  | .spadd f => [f.word 0x68, f.extWord]
  | .atom f => [f.word 0x69, f.extWord]
  | .atomc f => [f.word 0x6A, f.extWord]
  | .atoms f => [f.word 0x6B, f.extWord]
  | .rwlrd f => [f.word 0x6C, f.extWord]
  | .rwlwr f => [f.word 0x6D, f.extWord]
  | .rwlup f => [f.word 0x6E, f.extWord]
  | .rwlrel f => [f.word 0x6F, f.extWord]
  | .fence f => [f.word 0x70]
  | .cpy f => [f.word 0x71, f.extWord]
  | .cpyg f => [f.word 0x72, f.extWord]
  | .cpyw f => [f.word 0x73]
  | .dst f => [f.word 0x74, f.extWord]
  | .commit f => [f.word 0x75]
  | .pref f => [f.word 0x76]
  | .cctlIfetch f => [f.word 0x77]
  | .cctlFlush f => [f.word 0x77]
  | .cctlWb f => [f.word 0x77]
  | .bankcfg f => [f.word 0x78]
  | .fput f => [f.word 0x79]
  | .fget f => [f.word 0x7A]
  | .ldu f => [f.word 0x7B]
  | .stu f => [f.word 0x7C]
  | .atomx f => [f.word 0x7D, f.extWord]
  | .talloc f => [f.word 0x7E]
  | .tfree f => [f.word 0x7F]
  | .thand f => [f.word 0x80]
  | .ttake f => [f.word 0x81]
  | .tld f => [f.word 0x82]
  | .tst f => [f.word 0x83]
  | .tldw f => [f.word 0x84]
  | .tswap f => [f.word 0x85]
  | .tmma f => [f.word 0x86]
  | .tmmac f => [f.word 0x87]
  | .tzero f => [f.word 0x88]
  | .tscale f => [f.word 0x89]
  | .ttrans f => [f.word 0x8A]
  | .tcvt f => [f.word 0x8B]
  | .tquant f => [f.word 0x8C]
  | .tadd f => [f.word 0x8D]
  | .tmul f => [f.word 0x8E]
  | .tred f => [f.word 0x8F]
  | .tabsmax f => [f.word 0x90]
  | .tgetrow f => [f.word 0x91]
  | .tsetrow f => [f.word 0x92]
  | .tdrain f => [f.word 0x93]
  | .barinit f => [f.word 0x94]
  | .barenrol f => [f.word 0x95]
  | .bararrive f => [f.word 0x96]
  | .barexpect f => [f.word 0x97]
  | .barwait f => [f.word 0x98]
  | .stamptry f => [f.word 0x99]
  | .stampset f => [f.word 0x9A]
  | .perfCtr f => [f.word 0x9B]
  | .perfMcfg f => [f.word 0x9B]
  | .perfMrd f => [f.word 0x9B]
  | .perfMclr f => [f.word 0x9B]
  | .spawn f => [f.word 0x9C]
  | .launch f => [f.word 0x9D]
  | .join f => [f.word 0x9E]
  | .exit f => [f.word 0x9F]
  | .qdepth f => [f.word 0xA0]
  | .park f => [f.word 0xA1]
  | .collpush f => [f.word 0xA2, f.extWord]
  | .collpull f => [f.word 0xA3, f.extWord]
  | .collwait f => [f.word 0xA4]
  | .collwaitStat f => [f.word 0xA4]
  | .netst f => [f.word 0xA5, f.extWord]
  | .netld f => [f.word 0xA6, f.extWord]
  | .collgrp f => [f.word 0xA7]
  | .collgrpClr f => [f.word 0xA7]
  | .objset f => [f.word 0xA8]
  | .objsetClr f => [f.word 0xA8]
  | .objget f => [f.word 0xA9]
  | .rwload f => [f.word 0xAA]
  | .feat f => [f.word 0xAB]
  | .tlbinvVa f => [f.word 0xAC]
  | .tlbinvAll f => [f.word 0xAC]
  | .tlbinvObj f => [f.word 0xAC]
  | .csr f => [f.word 0xAD]
  | _ => []

/-- The words of a well-formed instruction. An event has none. -/
def encode (i : Instr) : List Word32 := prefixWords i.prefixes.1 i.prefixes.2 ++ baseWords i

/-- Splits a number into its `n` 32-bit words, the least significant first. -/
def wordsOf : Nat → Nat → List Word32
  | 0, _ => []
  | n + 1, w => BitVec.ofNat 32 w :: wordsOf n (w / 2 ^ 32)

/-- The instruction the decoder reads from bits numbered as the opcode table numbers them: the words of R78
in order, the first at the lowest address. An instruction has at most four words (R80). -/
def decodeTableWord (nbits w : Nat) : Option Instr :=
  (decode (wordsOf 4 (w % 2 ^ nbits))).map Decoded.instr

end Sys2Proof
end

