-- ==== Sys2Proof/Machine/Fetch.lean ====
section
/-!
DEFINITION. Fetching a clause and its checks (spec 04 R78 to R87), and descriptor 0 at a warp's first
instruction (spec 02 R34).
-/
namespace Sys2Proof.Machine

/-! ### Liveness descriptors (R34) -/

/-- The 64 bytes of a descriptor as the code object holds them (R34). -/
def LiveDesc.ofBytes (index : Nat) (bs : List Byte) : LiveDesc :=
  { index := index, v := BitVec.ofNat 128 (bytesNat bs 0 16), s := BitVec.ofNat 64 (bytesNat bs 16 8),
    h := BitVec.ofNat 32 (bytesNat bs 24 4), p := bytesNat bs 28 4 % 2 == 1, g := BitVec.ofNat 192 (bytesNat bs 32 24) }

/-- The reserved fields of a descriptor are zero (R34). -/
def descReservedZero (bs : List Byte) : Bool := bytesNat bs 28 4 < 2 && bytesNat bs 56 8 == 0

/-- Reads descriptor `d` of the block's kernel (R34): an index beyond the count and a nonzero reserved field
are illegal encodings; the read needs the R right. -/
def View.readDesc (t : View) (d : Nat) (k : View → LiveDesc → Res) : Res :=
  if t.blk.launch.dcnt ≤ d then .fault (flt 0x02 0x0D)
  else
    (t.readVa (t.blk.launch.descBase + BitVec.ofNat 64 (64 * d)) 64).then (fun t1 bs =>
      if descReservedZero bs then k t1 (.ofBytes d bs) else .fault (flt 0x02 0x0D))

/-! ### Clause checks (R81, R82, R83) -/

/-- The engine class of an opcode (R82); none for prefixes and reserved opcodes. -/
def engineClass (op : Nat) : Option Nat :=
  if op ≤ 0x27 then some 0
  else if 0x58 ≤ op && op ≤ 0x5D then some 4
  else if op ≤ 0x5F then some 1
  else if op ≤ 0x7D then some 2
  else if op ≤ 0x93 then some 3
  else if op ≤ 0x9A then some 2
  else if op = 0x9B then some 6
  else if op ≤ 0xA7 then some 5
  else if op ≤ 0xAD then some 6
  else none

/-- The instructions that end their clause (R83). -/
def endsClause (op : Nat) : Bool :=
  [0x18, 0x19, 0x1A, 0x1B, 0x1C, 0x1F, 0x24, 0x9F, 0xA1,
   0x20, 0x69, 0x6A, 0x7D, 0x6C, 0x6D, 0x6E, 0x6F, 0x68,
   0x22, 0x23,
   0x21, 0x70, 0x75, 0xA2, 0xA5, 0x9C, 0x9E, 0x9D, 0x96, 0x80, 0x81,
   0x1D, 0x1E].contains op

/-- RET and RETV stand alone in their clause (R83). -/
def standsAlone (op : Nat) : Bool := op == 0x1D || op == 0x1E

/-- The words of one instruction from `a` on: prefixes, base word and extension word. A run of prefix words
longer than the bound is cut, and its last word stands as the base word (log entry 14). -/
def scanInstr (rd : Addr → Except FaultInfo Word32) (a : Addr) : Nat → Except FaultInfo (List Word32)
  | 0 => (rd a).map (fun w => [w])
  | k + 1 =>
    match rd a with
    | .error f => .error f
    | .ok w =>
      if (asPrefix w).isSome then (scanInstr rd (a + 4) k).map (fun r => w :: r)
      else if hasExtWord (opByte w) then (rd (a + 4)).map (fun x => [w, x])
      else .ok [w]

/-- The opcode of an instruction's base word. -/
def baseOp (ws : List Word32) : Nat := opByte ((takePrefixes ws).2.headD (ws.getLastD 0))

/-- The words of `n` instructions from `a` on; an opcode byte of 0xF0 to 0xFF at an opcode position fails R81. -/
def scanClause (rd : Addr → Except FaultInfo Word32) (a : Addr) : Nat → Except FaultInfo (List (List Word32))
  | 0 => .ok []
  | n + 1 =>
    match scanInstr rd a 61 with
    | .error f => .error f
    | .ok ws =>
      if 0xF0 ≤ baseOp ws then .error (flt 0x03 0x04)
      else (scanClause rd (a + BitVec.ofNat 64 (4 * ws.length)) n).map (fun r => ws :: r)

/-- The position checks of R81: a clause-ending instruction last, RET and RETV alone. -/
def positionsOk (ops : List Nat) : Bool :=
  ops.dropLast.all (fun op => !endsClause op) && (ops.length == 1 || ops.all (fun op => !standsAlone op))

/-- A clause read and checked at its header address (R79, R81). Of several checks that fail, which one is reported is not stated:
the first in this order, in which a code word that cannot be read comes before the checks of class and position (log entry 67). -/
def scanHeader (rd : Addr → Except FaultInfo Word32) (a : Addr) : Except FaultInfo (Word32 × List (List Word32)) := do
  let h ← rd a
  let n := (h.extractLsb' 24 4).toNat
  let _ ← require (isHeader h && n != 0 && h.extractLsb' 0 7 == 0) (flt 0x03 0x00)
  let is ← scanClause rd (a + 4) n
  let ops := is.map baseOp
  let cls := (h.extractLsb' 21 3).toNat
  let _ ← require (cls == 7 || ops.all (fun op => match engineClass op with
    | some c => c == cls
    | none => true)) (flt 0x03 0x01)
  let _ ← require (positionsOk ops) (flt 0x03 0x02)
  let last ← rd (a + BitVec.ofNat 64 (4 * (1 + (is.map List.length).sum)))
  let _ ← require (isHeader last) (flt 0x03 0x03)
  .ok (h, is)

/-- The effective mask of a clause under its guard (R85). -/
def guardMask (w : Warp) (h : Word32) (m : LaneMask) : LaneMask :=
  if h.getLsbD 20 then
    let p := w.rp (h.extractLsb' 17 3).toNat
    m &&& (if h.getLsbD 16 then ~~~p else p)
  else m

/-- Whether earlier work that the header's WAIT names has not completed (R86, R268): loads by their destination, tile and transform
operations, fabric requests and reads, and atomics. Copies complete when they join the block's job list, deferred appends when the
core accepts them (R268). -/
def View.mustWait (t : View) (h : Word32) : Bool :=
  let op (f : OpBody → Bool) : Bool := t.w.ops.any (fun o => f o.body)
  (h.getLsbD 8 && t.w.loads.any (fun ld => match ld.dst with
    | .v .. => true
    | .s _ => false)) ||
    (h.getLsbD 9 && t.w.loads.any (fun ld => match ld.dst with
      | .s _ => true
      | .v .. => false)) ||
    (h.getLsbD 10 && op (fun b => match b with
      | .tile .. => true
      | .chain .. => true
      | _ => false)) ||
    (h.getLsbD 11 && t.w.ops.any Op.isXform) ||
    (h.getLsbD 14 && (t.dev.requests.any (fun r => r.isOf t.core t.w.num && r.kind.counted && r.drain.isNone) ||
      op (fun b => match b with
        | .fabric .. => true
        | _ => false))) ||
    (h.getLsbD 15 && op (fun b => match b with
      | .atomic _ eff _ _ => eff != 0
      | _ => false))

/-- Whether an operation under way still writes the guard predicate of a header (R85, R95). -/
def View.guardHeld (t : View) (h : Word32) : Bool :=
  h.getLsbD 20 && t.w.ops.any (fun o => o.holds.wp.contains (h.extractLsb' 17 3).toNat)

/-- Whether the guard predicate of a header holds an uncorrectable error, which the clause's first instruction consumes (R85, R437; log
entry 85). -/
def View.guardBad (t : View) (h : Word32) : Bool :=
  let q := (h.extractLsb' 17 3).toNat
  h.getLsbD 20 && q != 0 && t.dev.bad.contains (.pred t.core t.w.num q)

/-- A fault of the fetch lies at the clause's header (R78, R81). -/
def atHeader (a : Addr) (f : FaultInfo) : FaultInfo := { f with addr := some a }

/-- The clause at `a`, as the rewrite window of the warp has read it or as it is read now, with what the window has read beyond it
(R81, R396). -/
def View.clauseAt (t : View) (a : Addr) : Except FaultInfo ((Word32 × List (List Word32)) × List Clause) :=
  match t.w.ahead with
  | c :: r => if c.header == a then .ok ((c.word, c.todo), r)
    else (scanHeader (fun x => t.dev.codeWord t.core t.blk.launch x) a).map (fun y => (y, []))
  | [] => (scanHeader (fun x => t.dev.codeWord t.core t.blk.launch x) a).map (fun y => (y, []))

/-- The warp arrives at a header: it merges (R31), the clause is read and checked, WAIT is honoured, a job
fault that WAIT bit [12] meets is raised (R286), and the guard is read (R85). It ends with the warp at the first instruction. -/
def View.fetchClause (t : View) : Res :=
  match t.w.running with
  | none => .wait
  | some sp =>
    match t.putRing (arriveRing t.w.ring) with
    | .error f => .fault (atHeader sp.pc f)
    | .ok t1 =>
      match t1.clauseAt sp.pc with
      | .error f => .faultIn t1 (atHeader sp.pc f)
      | .ok ((h, is), ahead) =>
        if t1.mustWait h || t1.guardHeld h then .wait
        else
          match (if h.getLsbD 12 then t1.w.jobFault else none) with
          | some f => .faultIn (t1.setW { t1.w with jobFault := none }) (atHeader sp.pc f)
          | none =>
            if t1.guardBad h then .faultIn t1 (atHeader (sp.pc + 4) (flt 0x0E 0x00))
            else
            let cl : Clause := { header := sp.pc, word := h, idx := 1, todo := is, eff := guardMask t1.w h t1.w.runMask, start := t1.w.seq }
            let last := sp.pc + BitVec.ofNat 64 (4 * (is.map List.length).sum)
            .ok { t1 with
              dev := t1.dev.touchAll (some t1.core) t1.blk.launch.ctx [(sp.pc, [300]), (last, [300])]
              w := { t1.w with clause := some cl, ahead := ahead }
              cl := cl }

/-- The fetch at a header. A fault that was met where no instruction of the warp could raise it is raised here, as that of its
block's placement (R432) and of a BSYNC release (R155); at its first instruction a warp reads descriptor 0 (R34). -/
def View.fetch (t : View) : Res :=
  match t.w.dead with
  | some f => .faultIn (t.setW { t.w with dead := none }) { f with addr := some (f.addr.getD t.w.ckpt.resume) }
  | none =>
    if t.w.started then t.fetchClause
    else
      match t.readDesc 0 (fun t1 d => .ok (t1.setW { t1.w with started := true, desc := d, ckpt := { t1.w.ckpt with desc := d } })) with
      | .ok t1 => t1.fetchClause
      | .fault f => .fault (atHeader t.w.ckpt.resume f)
      | r => r

/-- What a warp waits for at a header (R333): a result of its own loads and atomics, or other things. -/
def View.fetchWait (t : View) : WaitKind :=
  if t.w.loads.isEmpty && t.w.ops.all (fun o => o.lanes.isEmpty) then .short else .result

/-- Whether the fetch has brought the warp, selected to issue, to its first instruction; any other end of the fetch is a state
(R332). -/
inductive Fetched where
  | ready (t : View)
  | ended (s : State)

/-- The warp in view fetches at its header. -/
def View.fetched (t : View) : Fetched :=
  match t.fetch with
  | .ok t' => if t.w.waiting.isSome then .ended t.polled.close else .ready t'
  | r => .ended (t.finish t.fetchWait r)

/-- Decodes the instruction in view for its warp; the words have passed the clause checks (R81). -/
def View.decoded (t : View) : Instr :=
  match decodeFor t.blk.launch.regs t.words with
  | some d => d.instr
  | none => .illegalInstruction 0x00 0

end Sys2Proof.Machine
end

