-- ==== Sys2Proof/Machine/Control.lean ====
section
/-!
DEFINITION. The control instructions, opcodes 0x18 to 0x27 (spec 07 R141 to R161; spec 18 R438, R439), and
the two decode faults.
-/
namespace Sys2Proof.Machine

/-! ### Shared operations -/

/-- Continues with a view, or takes its fault. -/
def Res.of (r : Except FaultInfo View) (k : View → Res) : Res :=
  match r with
  | .ok t => k t
  | .error f => .fault f

/-- The warp has left its clause. -/
def View.leave (t : View) : View := t.setW { t.w with clause := none }

/-- Counts a backward branch (R144). At the 32nd of the warp since a ready warp has been waiting in its quadrant's pending set, it
is exchanged for the one that has been pending longest (R45, R333). -/
def View.countBack (t : View) : View :=
  let w : Warp := { t.w with backCount := t.w.backCount + 1 }
  let b := t.blk.setWarp w
  match b.quadOf w.num with
  | none => t.setW w
  | some q =>
    let due (p : Pend) : Bool := b.readyWarp p.num && p.marks.any (fun m => m.1 == w.num && m.2 + 32 ≤ w.backCount)
    match (if q.pending.any due then b.readyPend q else none) with
    | none => t.setW w
    | some p =>
      let b1 := b.exchange t.dev.clock w.num p
      { t with blk := b1, w := (b1.warp w.num).getD w }

/-- A backward target lies at or below the clause's own header (R144). -/
def View.backward (t : View) (a : Addr) : Bool := a.toNat ≤ t.cl.header.toNat

/-- Sends lanes to their targets (R142): the targets are checked in group order before any lane moves (R143); the
other lanes of the split fall through, first in ring order (R29); `count` makes a backward target a switch
point (R30, R144). -/
def View.transfer (t : View) (groups : List (Addr × LaneMask)) (count : Bool) : Res :=
  match eachLane (fun (g : Addr × LaneMask) => t.checkTarget g.1) groups with
  | .error f => .fault f
  | .ok _ =>
    let taken := groups.foldl (fun m g => m ||| g.2) 0
    let next : Split := { pc := t.nextHeader, mask := t.w.runMask &&& ~~~taken, st := .ready }
    let ring := replaceRunning t.w.ring (next :: groups.map (fun g => { pc := g.1, mask := g.2, st := .ready }))
    let back := count && groups.any (fun g => t.backward g.1)
    Res.of (t.putRing (if back then switchRing ring else ring)) (fun t1 =>
      .ok (if back then t1.countBack.leave else t1.leave))

/-- The lanes of E whose predicate bit, negated or not, is 1 (R145). -/
def View.takenLanes (t : View) (p : BitVec 3) (neg : Bool) : LaneMask :=
  let x := t.w.rp p.toNat
  t.eff &&& (if neg then ~~~x else x)

/-- The target groups of BRX and CALLX (R147). -/
def View.linkGroups (t : View) (f : FormA) : List (Addr × LaneMask) :=
  groupTargets (t.effLanes.map (fun l => (l, t.w.link f.a (f.b.extractLsb' 0 6) (f.var == 1) l)))

/-- Calls: pushes the return entry of the taken lanes and sends them to their targets (R149). -/
def View.callTo (t : View) (groups : List (Addr × LaneMask)) : Res :=
  match eachLane (fun (g : Addr × LaneMask) => t.checkTarget g.1) groups with
  | .error f => .fault f
  | .ok _ =>
    let m := groups.foldl (fun m g => m ||| g.2) 0
    Res.of (t.pushRet { addr := t.nextHeader, mask := m }) (fun t1 => t1.transfer groups false)

/-- The lanes of E become one split held at the clause's own header; the other lanes of the running split go on
at the next header; the warp settles (R150, R154, R155). -/
def View.hold (t : View) (why : HoldKind) : Except FaultInfo View :=
  let next : Split := { pc := t.nextHeader, mask := t.w.runMask &&& ~~~t.eff, st := .ready }
  let held : Split := { pc := t.cl.header, mask := t.eff, st := .held why }
  match t.putRing (replaceRunning t.w.ring [next, held]) with
  | .error f => .error f
  | .ok t1 => t1.leave.settle

/-- Whether a return needs a region entry before it (R33, R121): at the depth of the current entry, or above it where the returns of
other lanes, which are held already, would follow and lower the depth below that. Whether a RET of one split that does not yet
complete the return enters a region is not stated: each RET or RETV at the entry's depth does (log entry 71). -/
def View.lowersDepth (t : View) (why : HoldKind) : Bool :=
  t.w.depth ≤ t.w.ckpt.depth ||
    (match t.hold why with
     | .ok u => u.w.depth < t.w.ckpt.depth
     | .error _ => false)

/-- A return: a region entry before it when it would lower the depth below that of the current entry (R33), then
its lanes are held and the warp settles (R150); a fault there leaves the warp at that entry. -/
def View.return (t : View) (why : HoldKind) : Res :=
  if t.w.depth = 0 then .fault (flt 0x0B 0x00)
  else if t.lowersDepth why then
    if !t.mayPass then .wait
    else
      match t.enter t.cl.header with
      | .ok t1 =>
        if t1.w.stop == .stopped then .skip t1.leave
        else
          match t1.hold why with
          | .ok t2 => .ok t2
          | .error f => .faultIn t1 f
      | r => r
  else Res.of (t.hold why) .ok

/-- The trap frame of a lane, bytes 176 to 191 of its slice (R438). -/
def trapFrame (n : Nat) (pc : Addr) : List Byte := leBytes 8 (0x0F + 2 ^ 8 * n) ++ leBytes 8 (pc.toNat % 2 ^ 55)

/-- Writes the trap frame into the slices of lanes (R438). -/
def writeFrames (sl : Cells 8) (bs : List Byte) : List Nat → Cells 8
  | [] => sl
  | l :: r => writeFrames (Cells.setMany sl (sliceKey l 176) bs) bs r

/-- Entering the trap handler (R159, R438): the handler's header is checked, the frames are written, the return
entry is pushed and the lanes of E go to the handler. -/
def View.enterHandler (t : View) (n : Nat) : Res :=
  let h := (t.dev.ctxDesc t.blk.launch.ctx [500]).trap
  if h = 0 then .fault (flt 0x0F (BitVec.ofNat 16 n))
  else
    match t.checkTarget h with
    | .error f => .fault f
    | .ok _ =>
      Res.of ((eachLane (fun l => t.stackReady (.slice l 176) 16) t.effLanes).map (fun _ => t)) (fun t0 =>
        let t1 := t0.setW { t.w with slices := writeFrames t.w.slices (trapFrame n (t.baseAddr false)) t.effLanes }
        (t1.effLanes.foldl (fun (u : View) l => u.healSlice l 176 u.w) t1).callTo [(h, t.eff)])

/-- The descriptor index of REGION (R158). -/
def regionIndex (f : FormH) : Nat := immNat f.fn f.imm

/-! ### Meanings -/

/-- BRA (R145). -/
def execBra (f : FormG) (s : State) : Host.Outcome State Fault Refusal :=
  issue (.bra f) (fun t =>
    let m := t.takenLanes f.pred (f.neg == 1)
    if m == 0 then .ok t else t.transfer [(t.target (immInt f.off f.imm), m)] true) s
/-- BR: to the address in s(a) (R146). -/
def execBr (f : FormC) (s : State) : Host.Outcome State Fault Refusal :=
  issue (.br f) (fun t =>
    let m := t.takenLanes (f.fn.extractLsb' 0 3) (f.fn.getLsbD 3)
    if m == 0 then .ok t else t.transfer [(t.w.rs f.a.toNat, m)] true) s
/-- BRX: each lane to its own target (R147). -/
def execBrx (f : FormA) (s : State) : Host.Outcome State Fault Refusal :=
  issue (.brx f) (fun t => t.transfer (t.linkGroups f) true) s
/-- CALL (R149). -/
def execCall (f : FormG) (s : State) : Host.Outcome State Fault Refusal :=
  issue (.call f) (fun t =>
    let m := t.takenLanes f.pred (f.neg == 1)
    if m == 0 then .ok t else t.callTo [(t.target (immInt f.off f.imm), m)]) s
/-- CALLX (R149). -/
def execCallx (f : FormA) (s : State) : Host.Outcome State Fault Refusal :=
  issue (.callx f) (fun t => t.callTo (t.linkGroups f)) s
/-- RET (R150). -/
def execRet (f : FormH) (s : State) : Host.Outcome State Fault Refusal := issue (.ret f) (fun t => t.return .ret) s
/-- RETV: the targets are read when the lanes are released (R150, R153). -/
def execRetv (f : FormA) (s : State) : Host.Outcome State Fault Refusal :=
  issue (.retv f) (fun t => t.return (.retv f.a (f.b.extractLsb' 0 6) (f.var == 1))) s
/-- LOOP: decrement and branch (R148). -/
def execLoop (f : FormC) (s : State) : Host.Outcome State Fault Refusal :=
  issue (.loop f) (fun t =>
    let x := t.w.rs f.d.toNat - 1
    let t1 := t.setW (t.w.ws f.d.toNat x)
    if x = 0 then .ok t1 else t1.transfer [(t.target (immInt f.w18 f.imm), t.eff)] true) s
/-- YIELD: a switch point (R157). -/
def execYield (f : FormH) (s : State) : Host.Outcome State Fault Refusal :=
  issue (.yield f) (fun t =>
    let t1 := t.fallThrough
    Res.of (t1.putRing (switchRing t1.w.ring)) .ok) s
/-- REGION: descriptor d becomes current and the region is confirmed (R158). -/
def execRegion (f : FormH) (s : State) : Host.Outcome State Fault Refusal :=
  issue (.region f) (fun t =>
    t.readDesc (regionIndex f) (fun t1 d =>
      if !t.mayPass then .wait else (t1.setW { t1.w with desc := d }).enterAfter)) s
/-- RECONV: the lanes of E wait for the target (R154). -/
def execReconv (f : FormG) (s : State) : Host.Outcome State Fault Refusal :=
  issue (.reconv f) (fun t =>
    let a := t.target (immInt f.off f.imm)
    match t.checkTarget a with
    | .error e => .fault e
    | .ok _ => Res.of (t.hold (.reconv a)) .ok) s
/-- BSYNC: arrival is a release at block scope, so it waits for the warp's earlier events (R155). -/
def execBsync (f : FormH) (s : State) : Host.Outcome State Fault Refusal :=
  issue (.bsync f) (fun t =>
    if !t.w.quiet then .wait
    else Res.of (t.hold (.bsync t.nextHeader)) (fun t1 => .ok t1.bsync)) s
/-- TRAP: the context's handler is called, or the warp is terminated (R159, R438, R439). -/
def execTrap (f : FormH) (s : State) : Host.Outcome State Fault Refusal :=
  issue (.trap f) (fun t => t.enterHandler f.fn.toNat) s
/-- SLEEP: the warp is not ready for 64 n cycles; n = 0 has no effect, and once a pre-emption is requested there is no sleep (R160,
R162). -/
def execSleep (f : FormH) (s : State) : Host.Outcome State Fault Refusal :=
  issue (.sleep f) (fun t =>
    let n := immNat f.fn f.imm
    if n = 0 || t.w.stop == .asked then .ok t else .ok (t.setW { t.w with outst := some (.sleep t.dev.clock (64 * n)) })) s
/-- GETPC (R161). -/
def execGetpc (f : FormC) (s : State) : Host.Outcome State Fault Refusal :=
  issue (.getpc f) (fun t =>
    .ok (t.setW (t.w.ws f.d.toNat (((t.target (immInt f.fn f.imm)).extractLsb' 0 55).setWidth 64)))) s
/-- NOP has no effect beyond issuing (R161). -/
def execNop (f : FormH) (s : State) : Host.Outcome State Fault Refusal := issue (.nop f) .ok s

/-- ILLEGAL_INSTRUCTION: class 0x01 (R100). -/
def execIllegalInstruction (detail : BitVec 16) (offset : Nat) (s : State) : Host.Outcome State Fault Refusal :=
  issueBad 0x01 detail offset s
/-- ILLEGAL_ENCODING: class 0x02 (R98, R101). -/
def execIllegalEncoding (detail : BitVec 16) (offset : Nat) (s : State) : Host.Outcome State Fault Refusal :=
  issueBad 0x02 detail offset s

end Sys2Proof.Machine
end

