-- ==== Sys2Proof/Machine/MemEvents.lean ====
section
/-!
DEFINITION. The events of ordinary accesses (spec 10 R239 to R253; spec 11 R266, R268, R274; spec 09 R214,
R215): loads, stores and atomics are performed at their places, fences complete or meet a conflict, mode
changes of banks complete.
-/
namespace Sys2Proof.Machine

/-! ### Order within a warp -/

/-- Whether a lane lies in another device. -/
def LanePlace.isRemote (p : LanePlace) : Bool :=
  match p.loc with
  | .remote _ _ => true
  | _ => false

/-- Accesses of one warp to one target through gang windows are performed in issue order (R217). -/
def samePeer (a b : Loc) : Bool :=
  match a, b with
  | .peer c _, .peer d _ => c == d
  | _, _ => false

/-- Two accesses of a warp whose instants follow program order: they share a byte (R241) or a gang-window target (R217). -/
def keepsOrder (a : Loc) (n : Nat) (b : Loc) (m : Nat) : Bool := a.overlaps n b m || samePeer a b

/-- Whether an earlier load, atomic or tile load of the warp must be performed first. -/
def Warp.readBefore (w : Warp) (seq : Nat) (loc : Loc) (n : Nat) : Bool :=
  w.loads.any (fun ld => ld.seq < seq && ld.lanes.any (fun p => p.pending && keepsOrder p.loc ld.size loc n)) ||
    w.ops.any (fun o => o.seq < seq && o.lanes.any (fun x => keepsOrder x.1 x.2 loc n))

/-- Whether an earlier store of the warp must be performed first. -/
def Warp.storeBefore (w : Warp) (seq : Nat) (loc : Loc) (n : Nat) : Bool :=
  w.buf.any (fun e =>
    match e with
    | .store o => o.seq < seq && keepsOrder o.loc o.bytes.length loc n
    | .fence => false)

/-- Whether every store of the warp before `seq` has been performed. -/
def Warp.storesDone (w : Warp) (seq : Nat) : Bool :=
  w.buf.all (fun e =>
    match e with
    | .store o => seq ≤ o.seq
    | .fence => true)

/-- Whether every event of the warp before `seq` has been performed, as a release there asks (R247). -/
def State.allDone (s : State) (core : Nat) (w : Warp) (seq : Nat) : Bool :=
  w.readsDone seq && w.storesDone seq && !s.netPending core w.num seq

/-- A mode change under way in another block's bank holds a gang-window access to it (R215); one of the vault cache, or a row
repair, holds an access of DRAM (R128, R460). -/
def State.bankHeld (s : State) (core : Nat) (loc : Loc) (n : Nat) : Bool :=
  match loc with
  | .peer c off => c != core && ((s.block c).map (fun b => b.changing (bankOf off))).getD false
  | _ => s.locHeld loc n

/-- Whether an access of the warp at a place, at `seq` in program order, must be performed later: an earlier access of the warp
comes first (R217, R241), or the place is held. -/
def State.accessHeld (s : State) (core : Nat) (w : Warp) (seq : Nat) (loc : Loc) (n : Nat) : Bool :=
  w.storeBefore seq loc n || w.readBefore seq loc n || s.bankHeld core loc n || s.netHeld core w.num loc n ||
    s.earlyHeld core w.num loc n

/-- A gang-window access whose byte no longer lies in the target's scratchpad faults (R215). -/
def State.bankGone (s : State) (loc : Loc) (n : Nat) : Bool :=
  match loc.scratch? with
  | some (c, off) => ((s.block c).map (fun b => decide (b.scratchSize < off + n))).getD true
  | none => false

/-! ### Loads -/

/-- Reads one lane: its value, or the error it met (R266, R437). -/
def State.readLane (s : State) (core w size : Nat) (loc : Loc) : Loc :=
  match s.readLoc core w loc size with
  | .ok bs => .got (leNat bs)
  | .error f => .bad f.detail

/-- The sectors of a place that a speculative read watches (R252). -/
def watchOf (loc : Loc) (n : Nat) : List Nat :=
  match loc with
  | .mem _ pa => sectorsOf pa n
  | _ => []

/-- Performs the lanes that `take` selects, in ascending order; a lane follows the lower lanes that share its bytes
(R240), and `ok` says whether its earlier accesses allow it. Returns the lanes and those left waiting. -/
def performReads (s : State) (core w size : Nat) (take : Nat → Bool) (ok : Loc → Bool) : List LanePlace → List Loc → List LanePlace
  | [], _ => []
  | p :: r, left =>
    if p.pending && !p.isRemote && take p.lane && ok p.loc && !left.any (fun q => q.overlaps size p.loc size) then
      { p with loc := s.readLane core w size p.loc } :: performReads s core w size take ok r left
    else p :: performReads s core w size take ok r (if p.pending then p.loc :: left else left)

/-- A free subset of the lanes: those whose bits are set, or every lane (log entry 3). -/
def freeLanes (s : State) (salt : List Nat) : Nat → Bool :=
  let m := Config.pick s.tick salt
  fun l => m % 2 == 0 || m.testBit (l + 1)

/-- The value of a lane that has been performed. -/
def LanePlace.value (p : LanePlace) : Nat :=
  match p.loc with
  | .got x => x
  | _ => 0

/-- The lowest lane that met an error, as the fault of R266. -/
def laneFault (pc : Addr) (kind : BitVec 2) (ps : List LanePlace) : Option FaultInfo :=
  ps.findSome? (fun p =>
    let mk (d : BitVec 16) : FaultInfo :=
      { flt 0x0E d with addr := some pc, lane := some p.lane, va := p.va, kind := kind }
    match p.loc with
    | .lost => some (mk 0x03)
    | .bad d => some (mk d)
    | _ => none)

/-- The registers a completed load writes (R268, R271). -/
def LoadOp.writes (ld : LoadOp) : List RegWrite :=
  match ld.dst with
  | .v r n => ld.lanes.flatMap (fun p => (List.range n).map (fun i => .v (r + i) p.lane (BitVec.ofNat 32 (p.value / 2 ^ (32 * i)))))
  | .s r => if r = 0 then [] else ld.lanes.map (fun p => .s r (BitVec.ofNat 64 p.value))

/-- Ends a load whose lanes have all been performed: its registers are written, or its fault is raised and none is
(R266); one of global memory is a sample of its gallery's monitors (R427). -/
def State.finishLoad (s : State) (core w : Nat) (ld : LoadOp) : State :=
  let drop (x : Warp) : Warp := { x with loads := x.loads.filter (fun y => y.seq != ld.seq) }
  match laneFault ld.pc 0 ld.lanes with
  | none =>
    let s1 := (s.mapWarp core w drop).writeRegs core w ld.writes
    if ld.glob then s1.sample (galleryOf core) 1 ld.since else s1
  | some f =>
    match s.viewOf core w with
    | none => s
    | some t => (t.setW (drop t.w)).raise f

/-- Puts back a load some of whose lanes have been performed, or ends it. -/
def State.putLoad (s : State) (core w : Nat) (ld : LoadOp) : State :=
  let s1 := s.mapWarp core w (fun x => { x with loads := x.loads.map (fun y => if y.seq == ld.seq then ld else y) })
  if ld.lanes.any LanePlace.pending then s1 else s1.finishLoad core w ld

/-- The headers of MASKPACK chunks that the accesses at these places have still to read. -/
def headersOf (locs : List Loc) : List Nat :=
  addAll [] (locs.filterMap (fun x =>
    match x with
    | .packed _ h _ _ _ [] => some h
    | _ => none))

/-- A place of an access that now reads the headers `hdrs`: each is read once for all the places of the access (R232). -/
def Loc.withHeader (loc : Loc) (s : State) (hdrs : List Nat) : Loc :=
  match loc with
  | .packed hv h sv sl off [] => if hdrs.contains h && !s.badMem h 64 then .packed hv h sv sl off (s.readVia hv h 64) else loc
  | _ => loc

/-- Whether a pending FENCE of the warp comes before `seq` (R252). -/
def Warp.behindFence (w : Warp) (seq : Nat) : Bool :=
  (w.fence.map (fun f => decide (f.seq ≤ seq) || f.prior.any (fun x => x.1 ≤ seq))).getD false

/-- LOAD_RESPONSE: lanes of an outstanding load are performed (R239, R240, R252, R268). -/
def execLoadResponse (core warp load : Nat) (s : State) : Host.Outcome State Fault Refusal :=
  match (s.block core).bind (fun b => b.warp warp) with
  | none => s.same
  | some w =>
    match w.loads[load]? with
    | none => s.same
    | some ld =>
      let behind := w.behindFence ld.seq
      if behind && !(ld.plain && w.ckpt.seq ≤ ld.seq) then s.same
      else
        let ok (loc : Loc) : Bool := !s.accessHeld core w ld.seq loc ld.size
        let take := freeLanes s [20]
        let now (p : LanePlace) : Bool := p.pending && !p.isRemote && take p.lane && ok p.loc
        let s0 := (ld.lanes.filter now).foldl (fun u p => u.visit false p.loc ld.size) s
        let hdrs := headersOf ((ld.lanes.filter now).map LanePlace.loc)
        let ls := ld.lanes.map (fun p => { p with loc := p.loc.withHeader s0 hdrs })
        let ps := performReads s0 core warp ld.size take ok ls []
        let done := (ls.zip ps).filter (fun x => x.1.pending && !x.2.pending)
        if done.any (fun x => s.bankGone x.1.loc ld.size) then
          match s.viewOf core warp with
          | none => s.same
          | some t => .next (t.raise { flt 0x07 0x01 with addr := some ld.pc })
        else
          let watch := if behind then done.flatMap (fun x => watchOf x.1.loc ld.size) else []
          let s1 := s0.mapWarp core warp (fun x =>
            match x.fence with
            | none => x
            | some f => { x with fence := some { f with watch := addAll f.watch watch } })
          .next (s1.putLoad core warp { ld with lanes := ps })

/-! ### Stores -/

/-- Whether a store that is a release may be performed before the warp's earlier events, for the agents outside its scope: at block
and gang scope, where those inside wait at its place (R246; log entry 8). -/
def StoreOp.mayLead (o : StoreOp) : Bool := !o.sc && (o.sco == 2 || o.sco == 3)

/-- Whether the store at position `k` of the warp's buffer may be performed (R241, R246, R247, R250, R252): no fence mark stands
before it, no earlier access shares a byte with it, and a release follows every earlier event of the warp, for the agents of its
scope. -/
def State.mayPerform (s : State) (core : Nat) (w : Warp) (k : Nat) (o : StoreOp) : Bool :=
  (w.buf.take k).all (fun e =>
    match e with
    | .fence => false
    | .store q => !q.loc.overlaps q.bytes.length o.loc o.bytes.length) &&
    !s.accessHeld core w o.seq o.loc o.bytes.length && (!o.rel || s.allDone core w o.seq || o.mayLead)

/-- The bytes a store leaves: its own, or for SPADD the sum with the word that is there (R277). -/
def State.storeBytes (s : State) (core w : Nat) (o : StoreOp) : Except FaultInfo (List Byte) :=
  match o.add with
  | none => .ok o.bytes
  | some typ => (s.readLoc core w o.loc 4).map (fun old => leBytes 4 (addTyped typ (leNat old) (leNat o.bytes)))

/-- FS bits REMERR and TIMEOUT (R374). -/
def fsREMERR : Word64 := 8
def fsTIMEOUT : Word64 := 4

/-- How a store to another device or to a refused address ends: done, dropped at its home, or unanswered; a refused one
is dropped (R355, R371, R373; log entry 5). -/
def remoteOutcome (s : State) (loc : Loc) : Word64 :=
  match loc with
  | .lost => fsREMERR
  | .remote _ _ =>
    match Config.pick s.tick [21] % 3 with
    | 0 => 0
    | 1 => fsREMERR
    | _ => fsTIMEOUT
  | _ => 0

/-- STORE_PERFORMED: a buffered store becomes visible at its place (R239). -/
def execStorePerformed (core warp store : Nat) (s : State) : Host.Outcome State Fault Refusal :=
  match (s.block core).bind (fun b => b.warp warp) with
  | none => s.same
  | some w =>
    match w.buf[store]? with
    | some (.store o) =>
      if !s.mayPerform core w store o then s.same
      else
        let s0 := if o.rel && !s.allDone core w o.seq then s.leads core warp o.seq (o.sco == 3) o.loc o.bytes.length else s
        let s1 := s0.mapWarp core warp (fun x => { x with buf := x.buf.eraseIdx store, fs := x.fs ||| remoteOutcome s o.loc })
        let fail (f : FaultInfo) : State :=
          match s1.viewOf core warp with
          | none => s1
          | some t => if t.w.life == .live then t.raise { f with addr := some o.pc } else s1
        if s.bankGone o.loc o.bytes.length then .next (fail (flt 0x07 0x01))
        else
          match s1.storeBytes core warp o with
          | .error f => .next (fail f)
          | .ok bs => .next (s1.writeLoc core warp o.loc bs)
    | _ => s.same

/-! ### Atomics -/

/-- An atomic under way, taken apart. -/
structure AtomicOp where
  op : Op
  size : Nat
  eff : LaneMask
  lanes : List LanePlace
  args : List (Nat × Nat × Nat)

/-- The atomics of a warp under way. -/
def Warp.atomics (w : Warp) : List AtomicOp :=
  w.ops.filterMap (fun o =>
    match o.body with
    | .atomic size eff ps xs => some { op := o, size := size, eff := eff, lanes := ps, args := xs }
    | _ => none)

/-- Performs lanes of an atomic in ascending order, each RMW in one instant (R240, R242). The write of a release, and every seq_cst
RMW, comes after every earlier event of the warp, as `done` says (R247), but for the agents outside a block or gang scope (R246); the
release part of a failing compare falls away (R275). -/
def performRmws (core : Nat) (w : Warp) (a : AtomicOp) (blk : Word32) (done : Bool) (take : Nat → Bool) :
    List LanePlace → List Loc → State → State × List LanePlace
  | [], _, s => (s, [])
  | p :: r, left, s =>
    let ord := atomOrd a.op.instr
    let waits : State × List LanePlace :=
      let q := performRmws core w a blk done take r (if p.pending then p.loc :: left else left) s
      (q.1, p :: q.2)
    if p.pending && !p.isRemote && take p.lane && !s.accessHeld core w a.op.seq p.loc a.size &&
        !left.any (fun q => q.overlaps a.size p.loc a.size) && (done || !(ord.1 == 4 && wideScope ord.2)) then
      let s0 := s.visit false p.loc a.size
      match s0.readLoc core w.num p.loc a.size with
      | .error f =>
        let q := performRmws core w a blk done take r left s0
        (q.1, { p with loc := .bad f.detail } :: q.2)
      | .ok bs =>
        let old := leNat bs
        let x := ((a.args.find? (fun x => x.1 == p.lane)).map Prod.snd).getD (0, 0)
        match (laneRmw a.op.instr blk x old).new with
        | none =>
          let q := performRmws core w a blk done take r left s0
          (q.1, { p with loc := .got old } :: q.2)
        | some v =>
          let early := isRelease ord.1 && wideScope ord.2 && !done
          if early && !(ord.2 == 2 || ord.2 == 3) then waits
          else
            let s1 := if early then s0.leads core w.num a.op.seq (ord.2 == 3) p.loc a.size else s0
            let q := performRmws core w a blk done take r left (s1.writeLoc core w.num p.loc (leBytes a.size v))
            (q.1, { p with loc := .got old } :: q.2)
    else waits

/-- Ends an atomic whose lanes have all been performed: those that were are delivered, and an error is then raised (R266). One whose
warp has been rolled back or has ended delivers nothing (R38, R436). -/
def State.finishAtomic (s : State) (core n : Nat) (a : AtomicOp) (ps : List LanePlace) : State :=
  match s.viewOf core n with
  | none => s
  | some t =>
    let t0 := t.setW { t.w with ops := t.w.ops.filter (fun o => o.seq != a.op.seq) }
    if a.eff == 0 || t.w.life != .live then t0.close
    else
      let got := ps.filter (fun p => match p.loc with
        | .got _ => true
        | _ => false)
      let w1 := got.foldl (fun w p => w.deliverRmw a.op.instr t.blk.launch.block p.lane p.value) t0.w
      let d1 : State := { t0.dev with bad := t0.dev.bad.filter (fun x =>
        !((writesV a.op.instr).any (fun r => got.any (fun p => x == .vreg core n r p.lane)))) }
      let t1 : View := { t0 with dev := d1, w := w1 }
      match laneFault a.op.pc 1 ps with
      | some f => t1.raise f
      | none => t1.close

/-- Puts back the lanes of an atomic, or ends it. -/
def State.putAtomic (s : State) (core n : Nat) (a : AtomicOp) (ps : List LanePlace) : State :=
  if ps.any LanePlace.pending then
    s.mapWarp core n (fun x => { x with ops := x.ops.map (fun o => if o.seq == a.op.seq then { a.op with body := .atomic a.size a.eff ps a.args } else o) })
  else s.finishAtomic core n a ps

/-- ATOMIC_RESPONSE: lanes of one of the warp's atomics are performed at their places (R242, R274). Which of them is free (log
entry 3). -/
def execAtomicResponse (core warp : Nat) (s : State) : Host.Outcome State Fault Refusal :=
  match s.viewOf core warp with
  | none => s.same
  | some t =>
    match t.w.atomics[Config.pick s.tick [23] % t.w.atomics.length]? with
    | none => s.same
    | some a =>
      let r := performRmws core t.w a t.blk.launch.block (s.allDone core t.w a.op.seq) (freeLanes s [22]) a.lanes [] s
      .next (r.1.putAtomic core warp a r.2)

/-! ### Fences (R252, R253) -/

/-- Whether the events before a pending fence at `seq` that it covers have been performed (R251). -/
def State.fenceMet (s : State) (core : Nat) (w : Warp) (seq : Nat) (order : BitVec 3) : Bool :=
  (!isAcquire order || w.readsDone seq) && (!isRelease order || s.allDone core w seq)

/-- FENCE_COMPLETE: the events that the oldest pending fence covers have been performed and, where it is the only one, no watched
sector has changed; held accesses may go on (R252). -/
def execFenceComplete (core warp : Nat) (s : State) : Host.Outcome State Fault Refusal :=
  match (s.block core).bind (fun b => b.warp warp) with
  | none => s.same
  | some w =>
    match w.fence with
    | some f =>
      match f.prior with
      | (k, ord) :: r =>
        if !s.fenceMet core w k ord then s.same
        else .next (s.mapWarp core warp (fun x => { x with fence := some { f with prior := r }, buf := x.buf.erase .fence }))
      | [] =>
        if f.hit || !s.fenceMet core w f.seq f.order then s.same
        else .next (s.mapWarp core warp (fun x => { x with fence := none, buf := x.buf.filter (fun e => e != .fence) }))
    | none => s.same

/-- FENCE_CONFLICT: a watched sector was invalidated before the fence completed; the warp rolls back to the fence's
resume point, where the fence is still pending (R253). -/
def execFenceConflict (core warp : Nat) (s : State) : Host.Outcome State Fault Refusal :=
  match s.viewOf core warp with
  | none => s.same
  | some t =>
    if t.w.life == .live && (t.w.fence.map FenceState.hit).getD false then .next t.rollback.close else s.same

/-! ### Mode changes of banks (R214, R215) -/

/-- Whether a place lies in one of the named banks of core `c`. -/
def inBanks (c : Nat) (banks : BitVec 48) (loc : Loc) : Bool :=
  match loc.scratch? with
  | some (d, off) => c == d && banks.getLsbD (bankOf off)
  | none => false

/-- Whether the warp has accesses to the named banks under way. -/
def Warp.usesBanks (w : Warp) (c : Nat) (banks : BitVec 48) : Bool :=
  w.loads.any (fun ld => ld.lanes.any (fun p => p.pending && inBanks c banks p.loc)) ||
    w.buf.any (fun e =>
      match e with
      | .store o => inBanks c banks o.loc
      | .fence => false) ||
    w.ops.any (fun o => o.lanes.any (fun x => inBanks c banks x.1))

/-- The scratchpad after a change: a bank whose mode becomes or stops being scratchpad is cleared, for its contents are lost
(R214). -/
def clearBanks (sc : Cells 8) (old new : Cells 2) (banks : BitVec 48) : Cells 8 :=
  sc.filter (fun e =>
    let k := bankOf e.1
    !(banks.getLsbD k && Cells.get old k != Cells.get new k))

/-- A warp that waits at a FIFO bank whose mode changes will raise a permission fault (R214). -/
def Warp.bankEnds (w : Warp) (changed : Nat → Bool) : Warp :=
  match w.wait with
  | some (.fifo k) => if changed k then { w with wait := some (.failed 0x09 0x06) } else w
  | _ => w

end Sys2Proof.Machine
end

