-- ==== Sys2Proof/Machine/Convert.lean ====
section
/-!
DEFINITION. The tensor parameter record, narrow conversion and the q4 block family (spec 03 R55, R56, R59 to
R62).
-/
namespace Sys2Proof.Machine

/-- A tensor parameter record (R59). -/
structure Param where
  fmt : BitVec 4
  rnd : Nat
  q4fix : Nat
  q4ad : Bool
  q4mask : BitVec 4
  clamp : Num
  scale : Num
  seed : Word32
  deriving DecidableEq, Repr

/-- A field of little-endian bytes. -/
def fieldNat (bs : List Byte) (off n : Nat) : Nat := leNat ((bs.drop off).take n)

/-- The record that 32 bytes hold. -/
def Param.ofBytes (bs : List Byte) : Param :=
  let b (k : Nat) : Byte := bs.getD k 0
  { fmt := (b 0).extractLsb' 0 4, rnd := ((b 1).extractLsb' 0 2).toNat, q4fix := ((b 2).extractLsb' 0 2).toNat,
    q4ad := (b 2).getLsbD 2, q4mask := (b 2).extractLsb' 4 4, clamp := fmtF32.read (fieldNat bs 4 4),
    scale := fmtF32.read (fieldNat bs 8 4), seed := BitVec.ofNat 32 (fieldNat bs 12 4) }

/-- Reserved fields of a record are zero (R59). -/
def paramReserved (bs : List Byte) : Bool :=
  let b (k : Nat) : Byte := bs.getD k 0
  (b 0).extractLsb' 4 4 == 0 && (b 1).extractLsb' 2 6 == 0 && !(b 2).getLsbD 3 && b 3 == 0 && (bs.drop 16).all (· == 0)

/-- Whether m1 × 2^e1 ≤ m2 × 2^e2. -/
def magLe (m1 : Nat) (e1 : Int) (m2 : Nat) (e2 : Int) : Bool :=
  let q := min e1 e2
  decide (m1 <<< (e1 - q).toNat ≤ m2 <<< (e2 - q).toNat)

/-- The largest finite value of a format as m × 2^e (R60). -/
def largestOf (c : BitVec 4) : Nat × Int :=
  match fmtOf c with
  | .flt F =>
    match F.read F.maxBits with
    | .fin _ m e => (m, e)
    | _ => (0, 0)
  | .int F => (F.hi.toNat, 0)
  | .q4 => (12, 23)
  | .none => (0, 0)

/-- The checks of R60 for an instruction that can produce the formats `ok`. -/
def Param.legal (bs : List Byte) (ok : List Nat) : Bool :=
  let p := Param.ofBytes bs
  let big := largestOf p.fmt
  paramReserved bs && p.rnd != 3 && ok.contains p.fmt.toNat && (!p.q4ad || p.q4mask != 0) &&
    (match p.clamp with
     | .fin n m e => !n && m != 0 && magLe m e big.1 big.2
     | _ => false) &&
    (match p.scale with
     | .fin _ m _ => m != 0
     | _ => false)

/-! ### q4 values (R55) -/

/-- The magnitudes of types 01, 10 and 11 in eighths. -/
def q4Mags (t : Nat) : List Nat :=
  match t with
  | 1 => [0, 4, 8, 12, 16, 24, 32, 48]
  | 2 => [0, 1, 2, 4, 8, 16, 32, 64]
  | _ => [0, 8, 16, 24, 32, 48, 64, 96]

/-- V(t, c) in eighths (R55). -/
def q4Eighths (t c : Nat) : Int :=
  if t = 0 then 8 * (if 8 ≤ c then (c : Int) - 16 else c)
  else
    let m : Int := (q4Mags t).getD (c % 8) 0
    if 8 ≤ c then -m else m

/-- DecodeQ4: V(t, c) × 2^(E − 40); the code −0 is zero (R55). -/
def decodeQ4 (scale : Nat) (c : Nat) : Num :=
  let v := q4Eighths (scale / 64 % 4) c
  .fin (v < 0) v.natAbs ((scale % 64 : Nat) - 43)

/-- The positive q4 magnitudes in eighths. -/
def q4Positive : List Nat := [1, 2, 4, 8, 12, 16, 24, 32, 40, 48, 56, 64, 96]

/-- The greatest q4 value not above m × 2^e (R57, R61): for each magnitude the greatest exponent that fits. -/
def q4Floor (m : Nat) (e : Int) : Nat × Int :=
  let cands : List (Nat × Int) := q4Positive.filterMap (fun v =>
    let es := (List.range 64).filter (fun (x : Nat) => magLe v ((x : Int) - 43) m e)
    es.getLast?.map (fun (x : Nat) => (v, (x : Int) - 43)))
  cands.foldl (fun b c => if magLe b.1 b.2 c.1 c.2 then c else b) (0, 0)

/-! ### ConvertNarrow (R61) -/

/-- The bound B as a magnitude (R61). -/
def Param.bound (p : Param) : Nat × Int :=
  match p.clamp with
  | .fin _ m e =>
    match fmtOf p.fmt with
    | .flt F =>
      match F.read (F.round .tz false m e).bits with
      | .fin _ m' e' => (m', e')
      | _ => (0, 0)
    | .int F => ((min (roundInt .tz false m e).1 F.hi).toNat, 0)
    | .q4 => q4Floor m e
    | .none => (0, 0)
  | _ => (0, 0)

/-- The rounding a record names (R59). -/
def Param.mode (p : Param) (idx : Nat) : RMode :=
  match p.rnd with
  | 0 => .ne
  | 1 => .tz
  | _ => .sr p.seed idx

/-- The sign of the scale. -/
def Param.scaleNeg (p : Param) : Bool :=
  match p.scale with
  | .fin n _ _ => n
  | _ => false

/-- The scaled and clamped value of a source that is no NaN, and whether its bound took its place (R61). -/
def Param.clamped (p : Param) (x : Num) : (Bool × Nat × Int) × Bool :=
  let b := p.bound
  match (x.mul p.scale).1 with
  | .fin n m e => if magLe m e b.1 b.2 then ((n, m, e), false) else ((n, b.1, b.2), true)
  | .inf n => ((n, b.1, b.2), true)
  | .nan _ => ((false, 0, 0), false)

/-- The encoding of a value in a format, rounded, with NX and UF (R61). A negative value of a natural type is
delivered as 0, the nearest value of the type (log entry 32). -/
def narrowTo (c : BitVec 4) (mode : RMode) (n : Bool) (m : Nat) (e : Int) : Flagged Nat :=
  match fmtOf c with
  | .flt F =>
    let r := F.round mode n m e
    { val := r.bits, fp := flagIf r.nx flagNX ||| flagIf (r.nx && r.tiny) flagUF, sat := false }
  | .int F =>
    let r := roundInt mode n m e
    { val := F.sat r.1, fp := flagIf (r.2 || r.1 < F.lo || F.hi < r.1) flagNX, sat := false }
  | _ => .pure 0

/-- ConvertNarrow for targets other than q4 (R61). -/
def Param.narrow (p : Param) (x : Num) (idx : Nat) : Flagged Nat :=
  match x with
  | .nan s =>
    match fmtOf p.fmt with
    | .flt F => { val := F.nan, fp := flagIf s flagIV, sat := false }
    | _ => { val := 0, fp := flagIV, sat := false }
  | _ =>
    let y := p.clamped x
    if y.2 then { narrowTo p.fmt .tz y.1.1 y.1.2.1 y.1.2.2 with fp := flagCL }
    else narrowTo p.fmt (p.mode idx) y.1.1 y.1.2.1 y.1.2.2

/-! ### EncodeQ4Block (R62) -/

/-- A dyadic number: mantissa and exponent. -/
abbrev Dyadic := Int × Int

/-- The points of the grid G(t, E) in ascending order: value in units of 2^(E−43), the number whose evenness decides
ties, and code (R55, R62). -/
def q4Grid (t : Nat) : List (Int × Nat × Nat) :=
  if t = 0 then (List.range 16).map (fun (k : Nat) => ((8 * ((k : Int) - 8), k, (k + 8) % 16) : Int × Nat × Nat))
  else
    ((List.range 7).map (fun (i : Nat) => (-(((q4Mags t).getD (7 - i) 0 : Nat) : Int), 7 - i, 15 - i))) ++
      (List.range 8).map (fun (i : Nat) => ((((q4Mags t).getD i 0 : Nat) : Int), i, i))

/-- The value m × 2^e in units of 2^(E−43), as a numerator over 2^d. -/
def inUnits (y : Dyadic) (E : Nat) : Int × Nat :=
  let s := y.2 - ((E : Int) - 43)
  if 0 ≤ s then (y.1 * 2 ^ s.toNat, 0) else (y.1, (-s).toNat)

/-- Round of R62 on a grid: the value in grid units and its code; beyond the ends it saturates. -/
def gridRound (mode : RMode) (y : Int) (d : Nat) : List (Int × Nat × Nat) → Int × Nat
  | [] => (0, 0)
  | [p] => (p.1, p.2.2)
  | p :: q :: r =>
    if y ≤ p.1 * 2 ^ d then (p.1, p.2.2)
    else if y < q.1 * 2 ^ d then
      let num := (y - p.1 * 2 ^ d).toNat
      let den := ((q.1 - p.1) * 2 ^ d).toNat
      let up := match mode with
        | .ne => decide (den < 2 * num) || (2 * num == den && q.2.1 % 2 == 0)
        | .tz => decide (p.1 < 0)
        | .sr seed e => decide ((draw seed e).toNat * den < num * 2 ^ 32)
      if up then (q.1, q.2.2) else (p.1, p.2.2)
    else gridRound mode y d (q :: r)

/-- M(t) in eighths (R62). -/
def q4Max (t : Nat) : Nat :=
  match t with
  | 0 => 56 | 1 => 48 | 2 => 64 | _ => 96

/-- E(t): the smallest exponent whose grid reaches the largest magnitude, or 63 (R62). -/
def q4Exp (t : Nat) (ys : List Dyadic) : Nat :=
  let fits (E : Nat) : Bool := ys.all (fun y => magLe y.1.natAbs y.2 (q4Max t) ((E : Int) - 43))
  if ys.all (fun y => y.1 == 0) then 0 else ((List.range 64).find? fits).getD 63

/-- A block encoded in one type: E, the elements' grid values and codes, and the squared error over a common unit. -/
structure Q4Try where
  t : Nat
  E : Nat
  ws : List (Int × Nat)
  err : Nat
  exact : Bool
  beyond : Bool
  deriving DecidableEq, Repr

/-- Encodes the scaled elements in type t; errors are counted in units of 2^(2q) (R62). -/
def q4Try (p : Param) (ys : List Dyadic) (idx : List Nat) (q : Int) (t : Nat) : Q4Try :=
  let E := q4Exp t ys
  let g := q4Grid t
  let ws := (ys.zip idx).map (fun x =>
    let u := inUnits x.1 E
    let r := gridRound (p.mode x.2) u.1 u.2 g
    if r.1 = 0 then (0, 0) else r)
  let lift (y : Dyadic) : Int := y.1 * 2 ^ (y.2 - q).toNat
  let diffs := (ys.zip ws).map (fun x => lift x.1 - lift (x.2.1, (E : Int) - 43))
  { t := t, E := E, ws := ws, err := (diffs.map (fun d => d.natAbs * d.natAbs)).sum, exact := diffs.all (· == 0),
    beyond := ys.any (fun y =>
      let u := inUnits y E
      u.1 < (g.headD (0, 0, 0)).1 * 2 ^ u.2 || (g.getLastD (0, 0, 0)).1 * 2 ^ u.2 < u.1) }

/-- The best of several tries: least error, ties to the lower type (R62). -/
def q4Best : List Q4Try → Q4Try
  | [] => { t := 0, E := 0, ws := [], err := 0, exact := true, beyond := false }
  | [a] => a
  | a :: r =>
    let b := q4Best r
    if a.err ≤ b.err then a else b

/-- EncodeQ4Block: the codes in [15:0] and the scale byte in [23:16] (R62, R198). -/
def Param.encodeQ4 (p : Param) (xs : List Num) (idx : List Nat) : Flagged Nat :=
  let pre := xs.map (fun x =>
    match x with
    | .nan _ => (((0, 0) : Dyadic), flagIV)
    | _ =>
      let y := p.clamped x
      (((if y.1.1 then -(y.1.2.1 : Int) else (y.1.2.1 : Int), y.1.2.2) : Dyadic), flagIf y.2 flagCL))
  let ys := pre.map Prod.fst
  let q := ys.foldl (fun m y => min m y.2) (-43)
  let types := if p.q4ad then (List.range 4).filter (fun t => p.q4mask.getLsbD t) else [p.q4fix]
  let b := q4Best (types.map (q4Try p ys idx q))
  { val := packCodes (b.ws.map Prod.snd) + 2 ^ 16 * (64 * b.t + b.E)
    fp := pre.foldl (fun m x => m ||| x.2) 0 ||| flagIf b.beyond flagCL ||| flagIf (!b.exact) flagNX, sat := false }
where
  /-- Codes in nibbles, the first lowest (R56). -/
  packCodes : List Nat → Nat
  | [] => 0
  | c :: cs => c % 16 + 16 * packCodes cs

/-- The four values of a q4 block in the layout of R198. -/
def q4Block (x : Nat) : List Num := (List.range 4).map (fun k => decodeQ4 (x / 2 ^ 16 % 256) (x / 2 ^ (4 * k) % 16))

end Sys2Proof.Machine
end

