-- ==== Sys2Proof/Machine/VectorInt.lean ====
section
/-!
DEFINITION. The integer vector instructions, opcodes 0x28 to 0x3F (spec 08 R163 to R173; spec 03 R54, R75,
R76).
-/
namespace Sys2Proof.Machine

/-! ### Elements (R54, R163) -/

/-- How a variant holds its elements: a register, halves, quarters, or an aligned pair. -/
inductive Shape where
  | one
  | half
  | quarter
  | pair
  deriving DecidableEq, Repr

/-- An operation on elements of any width. -/
abbrev ElemOp := (n : Nat) → BitVec n → BitVec n → BitVec n → BitVec n

/-- Applies an operation to the halves of three words (R54). -/
def halves (op : BitVec 16 → BitVec 16 → BitVec 16 → BitVec 16) (a b d : Word32) : Word32 :=
  op (a.extractLsb' 16 16) (b.extractLsb' 16 16) (d.extractLsb' 16 16) ++ op (a.extractLsb' 0 16) (b.extractLsb' 0 16) (d.extractLsb' 0 16)

/-- Applies an operation to the bytes of three words (R54). -/
def quarters (op : BitVec 8 → BitVec 8 → BitVec 8 → BitVec 8) (a b d : Word32) : Word32 :=
  let at8 (k : Nat) : BitVec 8 := op (a.extractLsb' (8 * k) 8) (b.extractLsb' (8 * k) 8) (d.extractLsb' (8 * k) 8)
  at8 3 ++ (at8 2 ++ (at8 1 ++ at8 0))

/-- The new value of a 32-bit destination: elements of v(a), operand b and v(d) (R166). -/
def elem32 (sh : Shape) (op : ElemOp) (a b d : Word32) : Word32 :=
  match sh with
  | .half => halves (op 16) a b d
  | .quarter => quarters (op 8) a b d
  | _ => op 32 a b d

/-- A form A lane operation (R163): each lane of E from its own operands. -/
def laneOp (f : FormA) (sh : Shape) (op : ElemOp) (t : View) : Res :=
  let w := t.w
  match sh with
  | .pair =>
    .ok (t.setW (w.wv64Each f.d.toNat (fun l => op 64 (w.rv64 f.a.toNat l) (w.opB64 f l) (w.rv64 f.d.toNat l)) t.effLanes))
  | _ =>
    .ok (t.setW (w.wvEach f.d.toNat (fun l => elem32 sh op (w.rv f.a.toNat l) (w.opB f l) (w.rv f.d.toNat l)) t.effLanes))

/-- Writes v(d) in the lanes of E from flagged results, and adds their flags (R72, R73). -/
def View.putFlagged (t : View) (d : Nat) (g : Nat → Flagged Word32) : Res :=
  let rs := t.effLanes.map g
  .ok (t.setW ((t.w.wvEach d (fun l => (g l).val) t.effLanes).addFlags (flagsOf rs) (satOf rs)))

/-- Writes the lanes of E of a predicate (R170). -/
def View.putP (t : View) (p : Nat) (g : Nat → Bool) : Res := .ok (t.setW (t.w.wp p t.eff (maskOf g)))

/-- Variants 0 to 3 of VADD, VSUB, VMUL, VMAD and VABS: i32, i16x2, i8x4, i64 (R166). -/
def shapeInt (v : BitVec 2) : Shape :=
  match v.toNat with
  | 0 => .one | 1 => .half | 2 => .quarter | _ => .pair

/-- Variants of VAND, VOR, VXOR: b32, b64. -/
def shapeBits (v : BitVec 2) : Shape := if v == 1 then .pair else .one

/-- Variants of the shifts: b32, b16x2, b64 (R166). -/
def shapeShift (v : BitVec 2) : Shape :=
  match v.toNat with
  | 0 => .one | 1 => .half | _ => .pair

/-- Variants of VMULH, VMIN, VMAX, VADDS and VSUBS: i32, n32, i16x2, n16x2. -/
def shapeNamed (v : BitVec 2) : Shape := if v.toNat ≤ 1 then .one else .half

/-- Whether a named-type variant is signed. -/
def signedNamed (v : BitVec 2) : Bool := v == 0 || v == 2

/-! ### Element results -/

/-- Bits [2w−1:w] of the exact product (R75). -/
def mulhW (signed : Bool) {n : Nat} (a b : BitVec n) : BitVec n :=
  if signed then BitVec.ofInt n (a.toInt * b.toInt / 2 ^ n) else BitVec.ofNat n (a.toNat * b.toNat / 2 ^ n)

/-- Whether a is less than b in the named type. -/
def ltW (signed : Bool) {n : Nat} (a b : BitVec n) : Bool := if signed then a.slt b else a.ult b

/-- |a|; the least value gives itself (R75). -/
def absW {n : Nat} (a : BitVec n) : BitVec n := if a.msb then -a else a

/-- Sign(x) × floor(|x| ÷ 2^n + ½) with the count clamped to the width (R76). -/
def srarW {n : Nat} (a b : BitVec n) : BitVec n :=
  let k := min b.toNat n
  let m := (2 * a.toInt.natAbs + 2 ^ k) / 2 ^ (k + 1)
  BitVec.ofInt n (if a.msb then -(m : Int) else m)

/-- Bounds of a named type of width n. -/
def loW (signed : Bool) (n : Nat) : Int := if signed then -(2 ^ (n - 1)) else 0
def hiW (signed : Bool) (n : Nat) : Int := if signed then 2 ^ (n - 1) - 1 else 2 ^ n - 1

/-- The integer an element stands for in its named type. -/
def intW (signed : Bool) {n : Nat} (a : BitVec n) : Int := if signed then a.toInt else a.toNat

/-- The value of the named type nearest an exact result (R75). -/
def clampW (signed : Bool) (n : Nat) (x : Int) : BitVec n := BitVec.ofInt n (min (max x (loW signed n)) (hiW signed n))

/-- An exact result lies outside the named type. -/
def outsideW (signed : Bool) (n : Nat) (x : Int) : Bool := x < loW signed n || hiW signed n < x

/-- A saturating operation: the saturated elements, and whether one saturated (R75, R166). -/
def satElems (v : BitVec 2) (op : Int → Int → Int) (a b : Word32) : Flagged Word32 :=
  let sg := signedNamed v
  let one (n : Nat) (x y : BitVec n) : Int := op (intW sg x) (intW sg y)
  match shapeNamed v with
  | .half =>
    let hi := one 16 (a.extractLsb' 16 16) (b.extractLsb' 16 16)
    let lo := one 16 (a.extractLsb' 0 16) (b.extractLsb' 0 16)
    { val := clampW sg 16 hi ++ clampW sg 16 lo, fp := 0, sat := outsideW sg 16 hi || outsideW sg 16 lo }
  | _ => { val := clampW sg 32 (one 32 a b), fp := 0, sat := outsideW sg 32 (one 32 a b) }

/-- The exact dot product of VDOT2S (R168). -/
def dot2 (v : BitVec 2) (a b d : Word32) : Int :=
  let sa := v != 1
  let sb := v == 0
  intW sa (a.extractLsb' 0 16) * intW sb (b.extractLsb' 0 16) + intW sa (a.extractLsb' 16 16) * intW sb (b.extractLsb' 16 16) + d.toInt

/-- The field VBFE extracts (R169). -/
def bfe32 (signed : Bool) (x spec : Word32) : Word32 :=
  let len := (spec.extractLsb' 8 5).toNat + 1
  let fld := (x >>> (spec.extractLsb' 0 5).toNat).toNat % 2 ^ len
  if signed && fld.testBit (len - 1) then BitVec.ofInt 32 ((fld : Int) - 2 ^ len) else BitVec.ofNat 32 fld

/-- The conditions of VCMP (R170). -/
def vcmpValue (c : Nat) (signed : Bool) (a b : Word32) : Bool :=
  match c with
  | 0 => a == b
  | 1 => a != b
  | 2 => ltW signed a b
  | 3 => !ltW signed b a
  | 4 => ltW signed b a
  | _ => !ltW signed a b

/-- The number of one bits of an element. -/
def popW {n : Nat} (a : BitVec n) : BitVec n := BitVec.ofNat n ((List.range n).filter (fun i => a.getLsbD i)).length

/-- Writes the first `k` registers of a group in the lanes `ls`, register r of lane l from `g r l`. -/
def Warp.wvGroup (w : Warp) (base : Nat) (g : Nat → Nat → Word32) (ls : List Nat) : Nat → Warp
  | 0 => w
  | k + 1 => (Warp.wvGroup w base g ls k).wvEach (base + k) (g k) ls

/-! ### Meanings -/

/-- VADD (R166). -/
def execVadd (f : FormA) (s : State) : Host.Outcome State Fault Refusal :=
  issue (.vadd f) (laneOp f (shapeInt f.var) (fun _ a b _ => a + b)) s
/-- VSUB (R166). -/
def execVsub (f : FormA) (s : State) : Host.Outcome State Fault Refusal :=
  issue (.vsub f) (laneOp f (shapeInt f.var) (fun _ a b _ => a - b)) s
/-- VMUL (R166). -/
def execVmul (f : FormA) (s : State) : Host.Outcome State Fault Refusal :=
  issue (.vmul f) (laneOp f (shapeInt f.var) (fun _ a b _ => a * b)) s
/-- VMULH (R166, R75). -/
def execVmulh (f : FormA) (s : State) : Host.Outcome State Fault Refusal :=
  issue (.vmulh f) (laneOp f (shapeNamed f.var) (fun _ a b _ => mulhW (signedNamed f.var) a b)) s
/-- VMAD: d is read and written (R166). -/
def execVmad (f : FormA) (s : State) : Host.Outcome State Fault Refusal :=
  issue (.vmad f) (laneOp f (shapeInt f.var) (fun _ a b d => a * b + d)) s
/-- VMIN (R166). -/
def execVmin (f : FormA) (s : State) : Host.Outcome State Fault Refusal :=
  issue (.vmin f) (laneOp f (shapeNamed f.var) (fun _ a b _ => if ltW (signedNamed f.var) b a then b else a)) s
/-- VMAX (R166). -/
def execVmax (f : FormA) (s : State) : Host.Outcome State Fault Refusal :=
  issue (.vmax f) (laneOp f (shapeNamed f.var) (fun _ a b _ => if ltW (signedNamed f.var) a b then b else a)) s
/-- VABS (R166, R75). -/
def execVabs (f : FormA) (s : State) : Host.Outcome State Fault Refusal :=
  issue (.vabs f) (laneOp f (shapeInt f.var) (fun _ a _ _ => absW a)) s
/-- VAND (R166). -/
def execVand (f : FormA) (s : State) : Host.Outcome State Fault Refusal :=
  issue (.vand f) (laneOp f (shapeBits f.var) (fun _ a b _ => a &&& b)) s
/-- VOR (R166). -/
def execVor (f : FormA) (s : State) : Host.Outcome State Fault Refusal :=
  issue (.vor f) (laneOp f (shapeBits f.var) (fun _ a b _ => a ||| b)) s
/-- VXOR (R166). -/
def execVxor (f : FormA) (s : State) : Host.Outcome State Fault Refusal :=
  issue (.vxor f) (laneOp f (shapeBits f.var) (fun _ a b _ => a ^^^ b)) s
/-- VSHL (R167). -/
def execVshl (f : FormA) (s : State) : Host.Outcome State Fault Refusal :=
  issue (.vshl f) (laneOp f (shapeShift f.var) (fun _ a b _ => shlW a b.toNat)) s
/-- VSHR (R167). -/
def execVshr (f : FormA) (s : State) : Host.Outcome State Fault Refusal :=
  issue (.vshr f) (laneOp f (shapeShift f.var) (fun _ a b _ => shrW a b.toNat)) s
/-- VSRA (R167). -/
def execVsra (f : FormA) (s : State) : Host.Outcome State Fault Refusal :=
  issue (.vsra f) (laneOp f (shapeShift f.var) (fun _ a b _ => sraW a b.toNat)) s
/-- VSRAR (R76). -/
def execVsrar (f : FormA) (s : State) : Host.Outcome State Fault Refusal :=
  issue (.vsrar f) (laneOp f (shapeShift f.var) (fun _ a b _ => srarW a b)) s
/-- VADDS (R166). -/
def execVadds (f : FormA) (s : State) : Host.Outcome State Fault Refusal :=
  issue (.vadds f) (fun t => t.putFlagged f.d.toNat (fun l => satElems f.var (· + ·) (t.w.rv f.a.toNat l) (t.w.opB f l))) s
/-- VSUBS (R166). -/
def execVsubs (f : FormA) (s : State) : Host.Outcome State Fault Refusal :=
  issue (.vsubs f) (fun t => t.putFlagged f.d.toNat (fun l => satElems f.var (· - ·) (t.w.rv f.a.toNat l) (t.w.opB f l))) s
/-- VDOT2S (R168). -/
def execVdot2s (f : FormA) (s : State) : Host.Outcome State Fault Refusal :=
  issue (.vdot2s f) (fun t => t.putFlagged f.d.toNat (fun l =>
    let x := dot2 f.var (t.w.rv f.a.toNat l) (t.w.opB f l) (t.w.rv f.d.toNat l)
    { val := clampW true 32 x, fp := 0, sat := outsideW true 32 x })) s
/-- VCMP (R170). -/
def execVcmp (f : FormA) (s : State) : Host.Outcome State Fault Refusal :=
  issue (.vcmp f) (fun t => t.putP (f.d.extractLsb' 0 3).toNat (fun l =>
    vcmpValue (f.d.extractLsb' 3 4).toNat (f.var == 0) (t.w.rv f.a.toNat l) (t.w.opB f l))) s
/-- VSEL: bits [2:0] of the word name the predicate (R171). -/
def execVsel (f : FormA) (s : State) : Host.Outcome State Fault Refusal :=
  issue (.vsel f) (fun t =>
    let p := t.w.rp (f.var ++ f.bs).toNat
    .ok (t.setW (t.w.wvEach f.d.toNat
      (fun l => if p.getLsbD l then t.w.rv f.a.toNat l else t.w.rv f.b.toNat l) t.effLanes))) s
/-- VMOV: a group, or a scalar to every lane (R172). -/
def execVmov (f : FormW) (s : State) : Host.Outcome State Fault Refusal :=
  issue (.vmov f) (fun t =>
    let w := t.w
    if f.sel == 0 then .ok (t.setW (w.wvGroup f.d.toNat (fun k l => w.rv (f.a.toNat + k) l) t.effLanes (grpW f.wd)))
    else
      let x := w.rs (f.a.toNat % 64)
      .ok (t.setW (w.wvGroup f.d.toNat (fun k _ => x.extractLsb' (32 * k) 32) t.effLanes (grpW f.wd)))) s
/-- VLI: the low 32 bits of the sign-extended immediate (R173). -/
def execVli (f : FormB) (s : State) : Host.Outcome State Fault Refusal :=
  issue (.vli f) (fun t =>
    .ok (t.setW (t.w.wvEach f.d.toNat (fun _ => BitVec.ofInt 32 (immInt f.imm10 f.imm)) t.effLanes))) s
/-- VBFE (R169). -/
def execVbfe (f : FormA) (s : State) : Host.Outcome State Fault Refusal :=
  issue (.vbfe f) (fun t =>
    .ok (t.setW (t.w.wvEach f.d.toNat (fun l => bfe32 (f.var == 1) (t.w.rv f.a.toNat l) (t.w.opB f l)) t.effLanes))) s
/-- VPOPC (R166). -/
def execVpopc (f : FormA) (s : State) : Host.Outcome State Fault Refusal :=
  issue (.vpopc f) (laneOp f (if f.var == 1 then .half else .one) (fun _ a _ _ => popW a)) s

end Sys2Proof.Machine
end

