-- ==== Sys2Proof/Machine/VectorFloat.lean ====
section
/-!
DEFINITION. The floating vector instructions, opcodes 0x40 to 0x4F (spec 08 R174 to R179; spec 03 R70, R71).
-/
namespace Sys2Proof.Machine

/-- A flagged number as a word. -/
def Flagged.word (r : Flagged Nat) : Flagged Word32 := { val := BitVec.ofNat 32 r.val, fp := r.fp, sat := r.sat }

/-- A lane operation on FP32 values of v(a), operand b and v(d) (R174). -/
def floatOp (f : FormA) (op : Nat → Nat → Nat → Flagged Nat) (t : View) : Res :=
  t.putFlagged f.d.toNat (fun l => (op (t.w.rv f.a.toNat l).toNat (t.w.opB f l).toNat (t.w.rv f.d.toNat l).toNat).word)

/-- A lane operation on the two halves of each register, bf16x2 or f16x2 (R174). -/
def pairOp (f : FormA) (op : FloatFmt → Nat → Nat → Nat → Flagged Nat) (t : View) : Res :=
  let F := if f.var == 1 then fmtF16 else fmtBF16
  t.putFlagged f.d.toNat (fun l =>
    let half (x : Word32) (k : Nat) : Nat := x.toNat / 2 ^ (16 * k) % 2 ^ 16
    let one (k : Nat) : Flagged Nat :=
      op F (half (t.w.rv f.a.toNat l) k) (half (t.w.opB f l) k) (half (t.w.rv f.d.toNat l) k)
    { val := BitVec.ofNat 32 ((one 0).val + 2 ^ 16 * (one 1).val), fp := (one 0).fp ||| (one 1).fp, sat := false })

/-! ### Element groups (R177) -/

/-- Element k of a group whose elements have `w` bits, in lane l (R54, R177). -/
def Warp.elem (x : Warp) (base w k l : Nat) : Nat := (x.rv (base + k / (32 / w)) l).toNat / 2 ^ (w * (k % (32 / w))) % 2 ^ w

/-- The word that `32 ÷ w` elements make, the first lowest. -/
def packWord (w : Nat) : List Nat → Nat
  | [] => 0
  | x :: xs => x % 2 ^ w + 2 ^ w * packWord w xs

/-- Register r of a group that holds the elements `xs` of `w` bits. -/
def groupWord (w r : Nat) (xs : List Nat) : Word32 := BitVec.ofNat 32 (packWord w ((xs.drop (r * (32 / w))).take (32 / w)))

/-- Converts element by element from a source group to a destination group (R177): `sw` and `dw` are the element
widths, `ra` and `rd` the group sizes. -/
def View.convertGroup (t : View) (d a rd ra dw sw : Nat) (conv : Nat → Nat → Nat → Flagged Nat) : View :=
  let w := t.w
  let elems (l : Nat) : List (Flagged Nat) := (List.range (ra * (32 / sw))).map (fun k => conv k l (w.elem a sw k l))
  let all := t.effLanes.flatMap elems
  t.setW ((w.wvGroup d (fun r l => groupWord dw r ((elems l).map Flagged.val)) t.effLanes rd).addFlags (flagsOf all) (satOf all))

/-- The floating format of an FCVT index (R178). -/
def fcvtFmt (i : Nat) : FloatFmt :=
  match i with
  | 0 => fmtF32 | 1 => fmtF16 | 2 => fmtBF16 | 3 => fmtE5M2 | _ => fmtE4M3

/-- An element of an integer format as an integer. -/
def IntFmt.read (F : IntFmt) (x : Nat) : Int := if F.signed && x.testBit (F.w - 1) then (x : Int) - 2 ^ F.w else x

/-- One ICVT conversion (R179). -/
def icvtElem (c : Nat) (mode : RMode) (x : Nat) : Flagged Nat :=
  let toInt (w : Nat) (sg : Bool) : Flagged Nat := toIntBits ⟨w, sg⟩ mode (fmtF32.read x)
  let ofInt (w : Nat) (sg : Bool) : Flagged Nat := ofIntBits mode (IntFmt.read ⟨w, sg⟩ x)
  let narrow (w : Nat) (sg : Bool) : Flagged Nat := narrowInt ⟨w, sg⟩ (IntFmt.read ⟨32, sg⟩ x)
  match c with
  | 0 => toInt 32 true | 1 => toInt 32 false | 2 => toInt 16 true | 3 => toInt 16 false | 4 => toInt 8 true
  | 5 => toInt 8 false
  | 6 => ofInt 32 true | 7 => ofInt 32 false | 8 => ofInt 16 true | 9 => ofInt 16 false | 10 => ofInt 8 true
  | 11 => ofInt 8 false
  | 12 => narrow 16 true | 13 => narrow 8 true | 14 => narrow 16 false | _ => narrow 8 false

/-! ### Meanings -/

/-- FADD (R174). -/
def execFadd (f : FormA) (s : State) : Host.Outcome State Fault Refusal :=
  issue (.fadd f) (floatOp f (fun a b _ => fmtF32.addBits a b)) s
/-- FSUB (R174). -/
def execFsub (f : FormA) (s : State) : Host.Outcome State Fault Refusal :=
  issue (.fsub f) (floatOp f (fun a b _ => fmtF32.subBits a b)) s
/-- FMUL (R174). -/
def execFmul (f : FormA) (s : State) : Host.Outcome State Fault Refusal :=
  issue (.fmul f) (floatOp f (fun a b _ => fmtF32.mulBits a b)) s
/-- FFMA: a × b + d, one rounding (R174). -/
def execFfma (f : FormA) (s : State) : Host.Outcome State Fault Refusal :=
  issue (.ffma f) (floatOp f (fun a b d => fmtF32.fmaBits a b d)) s
/-- FMIN (R71). -/
def execFmin (f : FormA) (s : State) : Host.Outcome State Fault Refusal :=
  issue (.fmin f) (floatOp f (fun a b _ => fmtF32.minMax false a b)) s
/-- FMAX (R71). -/
def execFmax (f : FormA) (s : State) : Host.Outcome State Fault Refusal :=
  issue (.fmax f) (floatOp f (fun a b _ => fmtF32.minMax true a b)) s
/-- FCMP (R175). -/
def execFcmp (f : FormA) (s : State) : Host.Outcome State Fault Refusal :=
  issue (.fcmp f) (fun t =>
    let g (l : Nat) : Flagged Bool :=
      fmtF32.cmp (f.d.extractLsb' 3 4).toNat (t.w.rv f.a.toNat l).toNat (t.w.opB f l).toNat
    .ok (t.setW ((t.w.wp (f.d.extractLsb' 0 3).toNat t.eff (maskOf (fun l => (g l).val))).addFlags
      (flagsOf (t.effLanes.map g)) false))) s
/-- FRCP (R70). -/
def execFrcp (f : FormA) (s : State) : Host.Outcome State Fault Refusal :=
  issue (.frcp f) (floatOp f (fun a _ _ => frcp a)) s
/-- FRSQ (R70). -/
def execFrsq (f : FormA) (s : State) : Host.Outcome State Fault Refusal :=
  issue (.frsq f) (floatOp f (fun a _ _ => frsq a)) s
/-- FEXP2 (R70). -/
def execFexp2 (f : FormA) (s : State) : Host.Outcome State Fault Refusal :=
  issue (.fexp2 f) (floatOp f (fun a _ _ => fexp2 a)) s
/-- FLOG2 (R70). -/
def execFlog2 (f : FormA) (s : State) : Host.Outcome State Fault Refusal :=
  issue (.flog2 f) (floatOp f (fun a _ _ => flog2 a)) s
/-- FCVT (R178). -/
def execFcvt (f : FormW) (s : State) : Host.Outcome State Fault Refusal :=
  issue (.fcvt f) (fun t =>
    let D := fcvtFmt (f.sel.extractLsb' 3 3).toNat
    let S := fcvtFmt (f.sel.extractLsb' 0 3).toNat
    .ok (t.convertGroup f.d.toNat f.a.toNat (grpW f.wd) (grpW f.wa) D.width S.width (fun _ _ x => fcvtBits1 D S x))) s
/-- ICVT (R179). -/
def execIcvt (f : FormW) (s : State) : Host.Outcome State Fault Refusal :=
  issue (.icvt f) (fun t =>
    let c := (f.sel.extractLsb' 0 4).toNat
    let mode : RMode := if f.sel.extractLsb' 4 2 == 0 then .ne else .tz
    .ok (t.convertGroup f.d.toNat f.a.toNat (grpW f.wd) (grpW f.wa) (icvtBits c).1 (icvtBits c).2 (fun _ _ x => icvtElem c mode x))) s
/-- PKADD (R174). -/
def execPkadd (f : FormA) (s : State) : Host.Outcome State Fault Refusal :=
  issue (.pkadd f) (pairOp f (fun F a b _ => F.addBits a b)) s
/-- PKFMA (R174). -/
def execPkfma (f : FormA) (s : State) : Host.Outcome State Fault Refusal :=
  issue (.pkfma f) (pairOp f (fun F a b d => F.fmaBits a b d)) s
/-- FCLASS sets one bit and no flag (R176). -/
def execFclass (f : FormA) (s : State) : Host.Outcome State Fault Refusal :=
  issue (.fclass f) (fun t => .ok (t.setW (t.w.wvEach f.d.toNat
    (fun l => 1#32 <<< fmtF32.classBit (t.w.rv f.a.toNat l).toNat) t.effLanes))) s

end Sys2Proof.Machine
end

