-- ==== Sys2Proof/Machine/Transform.lean ====
section
/-!
DEFINITION. The transform instructions, opcodes 0x58 to 0x5D, and the transform pipe (spec 08 R192 to R203).
An instruction joins its quadrant's queue when it issues; the pipe accepts it, which reads its sources, and
completes it.
-/
namespace Sys2Proof.Machine

/-! ### Results (R197 to R203) -/

/-- What an accepted instruction will write (R193). -/
structure XResult where
  writes : List RegWrite
  fp : FpFlags
  sat : Bool
  deriving DecidableEq, Repr

/-- Writes of `rd` registers of one lane. -/
def laneWrites (d rd l : Nat) (g : Nat → Word32) : List RegWrite := (List.range rd).map (fun r => .v (d + r) l (g r))

/-- An element of a source format as an exact value. -/
def readNum (c : BitVec 4) (x : Nat) : Num :=
  match fmtOf c with
  | .flt F => F.read x
  | .int F => Num.ofInt (F.read x)
  | _ => .fin false 0 0

/-- The source elements of XCVT in lane l, exact (R197). -/
def Warp.xcvtSource (w : Warp) (typ : BitVec 4) (a ra l : Nat) : List Num :=
  if typ == 5 then (List.range ra).flatMap (fun r => q4Block (w.rv (a + r) l).toNat)
  else
    let sw := fmtBits typ
    (List.range (ra * (32 / sw))).map (fun k => readNum typ (w.elem a sw k l))

/-- XCVT (R197, R198). -/
def xcvtResult (f : FormE) (w : Warp) (eff : LaneMask) (param : List Byte) : XResult :=
  let p := Param.ofBytes param
  let rd := grpW (f.sub.extractLsb' 2 2)
  let ra := grpW (f.sub.extractLsb' 0 2)
  let d := f.d.toNat
  let lane (l : Nat) : List (Flagged Nat) :=
    let src := w.xcvtSource f.typ f.a.toNat ra l
    if p.fmt == 5 then (List.range rd).map (fun j =>
      p.encodeQ4 ((src.drop (4 * j)).take 4) ((List.range 4).map (fun m => 32 * (4 * j + m) + l)))
    else ((List.range src.length).zip src).map (fun x => p.narrow x.2 (32 * x.1 + l))
  let dw := if p.fmt == 5 then 32 else fmtBits p.fmt
  let all := (lanes eff).flatMap lane
  { writes := (lanes eff).flatMap (fun l => laneWrites d rd l (fun r => groupWord dw r ((lane l).map Flagged.val)))
    fp := flagsOf all, sat := satOf all }

/-- Width ew and shift of an XPACK selector (R199). -/
def xpackField (sel : Nat) : Nat × Nat :=
  match sel with
  | 0 => (16, 0) | 1 => (16, 16) | 2 => (8, 0) | _ => (4, 0)

/-- XPACK (R199). -/
def xpackResult (f : FormW) (w : Warp) (eff : LaneMask) : XResult :=
  let ew := (xpackField f.sel.toNat).1
  let sh := (xpackField f.sel.toNat).2
  let elems (l : Nat) : List Nat := (List.range (grpW f.wa)).map (fun j => (w.rv (f.a.toNat + j) l).toNat / 2 ^ sh % 2 ^ ew)
  { writes := (lanes eff).flatMap (fun l => laneWrites f.d.toNat (grpW f.wd) l (fun r => groupWord ew r (elems l))), fp := 0, sat := false }

/-- XUNPACK (R200). -/
def xunpackResult (f : FormW) (w : Warp) (eff : LaneMask) : XResult :=
  let ew := if f.sel.toNat ≤ 1 then 16 else if f.sel.toNat ≤ 3 then 8 else 4
  let signed := f.sel.getLsbD 0
  { writes := (lanes eff).flatMap (fun l => laneWrites f.d.toNat (grpW f.wd) l (fun j =>
      BitVec.ofInt 32 (IntFmt.read ⟨ew, signed⟩ (w.elem f.a.toNat ew j l)))), fp := 0, sat := false }

/-- Ranks an element of XTOPK: its magnitude bits, NaNs above infinity (R201). All NaNs rank equal. -/
def topkRank (F : FloatFmt) (x : Nat) : Nat :=
  let m := x % F.signBit
  if F.infBits < m then F.infBits + 1 else m

/-- The indices of the k elements of greatest rank among 64, ascending; ties go to the lower index (R201). -/
def topkSelect (F : FloatFmt) (k : Nat) (elem : Nat → Nat) : List Nat :=
  let rank (j : Nat) : Nat := topkRank F (elem j)
  let above (j : Nat) : Nat := ((List.range 64).filter (fun i => rank j < rank i || (rank i == rank j && i < j))).length
  (List.range 64).filter (fun j => above j < k)

/-- XTOPK (R201). -/
def xtopkResult (f : FormE) (w : Warp) (eff : LaneMask) : XResult :=
  let F := if f.typ == 0 then fmtF32 else fmtBF16
  let k := 4 * 2 ^ f.sub.toNat
  let elem (j : Nat) : Nat :=
    let l := j % 32
    if !eff.getLsbD l then 0
    else if f.typ == 0 then (w.rv (f.a.toNat + j / 32) l).toNat
    else (w.rv f.a.toNat l).toNat / 2 ^ (16 * (j / 32)) % 2 ^ 16
  let sel := topkSelect F k elem
  let mask : Word64 := BitVec.ofNat 64 ((sel.map (fun j => 2 ^ j)).sum)
  { writes := (if f.obj == 0 then [] else [.s f.obj.toNat mask]) ++
      (lanes eff).map (fun l => .v f.d.toNat l (BitVec.ofNat 32 ((sel[l]?.map elem).getD 0)))
    fp := 0, sat := false }

/-- One byte of CRC-32C, reflected (R202, R282). -/
def crcBit (c : Word32) : Word32 := if c.getLsbD 0 then (c >>> 1) ^^^ 0x82F63B78 else c >>> 1
def crcByte (c : Word32) (x : Byte) : Word32 := Nat.repeat crcBit 8 (c ^^^ x.setWidth 32)

/-- The bytes XCRC takes (R202). -/
def xcrcBytes (f : FormA) (w : Warp) (l : Nat) : List Byte :=
  match f.var.toNat with
  | 0 => leBytes 1 (w.rv f.a.toNat l).toNat
  | 1 => leBytes 2 (w.rv f.a.toNat l).toNat
  | 2 => leBytes 4 (w.rv f.a.toNat l).toNat
  | _ => leBytes 8 (w.rv64 f.a.toNat l).toNat

/-- XCRC (R202). -/
def xcrcResult (f : FormA) (w : Warp) (eff : LaneMask) : XResult :=
  { writes := (lanes eff).map (fun l => .v f.d.toNat l ((xcrcBytes f w l).foldl crcByte (w.rv f.d.toNat l))), fp := 0, sat := false }

/-- The order of a sort key: FP32 total order with NaNs last (equal among themselves), or integer (R203). -/
def sortKey (typ : BitVec 4) (x : Word32) : Int :=
  if typ == 10 then x.toInt
  else if typ == 11 then (x.toNat : Int)
  else if (fmtF32.read x.toNat).isNan then 2 ^ 32
  else fmtF32.key x.toNat

/-- Inserts a lane into lanes sorted by key, after its equals (R203). -/
def insertKey (before : Nat → Nat → Bool) (l : Nat) : List Nat → List Nat
  | [] => [l]
  | x :: r => if before l x then l :: x :: r else x :: insertKey before l r

/-- XSORT (R203). -/
def xsortResult (f : FormE) (w : Warp) (eff : LaneMask) : XResult :=
  let key (l : Nat) : Int := sortKey f.typ (w.rv f.a.toNat l)
  let before (i j : Nat) : Bool := if f.sub == 0 then decide (key i < key j) else decide (key j < key i)
  let ls := lanes eff
  let sorted := ls.foldl (fun acc l => insertKey before l acc) []
  let vv := (f.x.extractLsb' 0 7).toNat
  { writes := (ls.zip sorted).flatMap (fun x =>
      .v f.d.toNat x.1 (w.rv f.a.toNat x.2) :: (if f.x.getLsbD 7 then [.v vv x.1 (w.rv vv x.2)] else []))
    fp := 0, sat := false }

/-- The result of a transform instruction from its source registers (R193). -/
def xformResult (i : Instr) (w : Warp) (eff : LaneMask) (param : List Byte) : XResult :=
  match i with
  | .xcvt f => xcvtResult f w eff param
  | .xpack f => xpackResult f w eff
  | .xunpack f => xunpackResult f w eff
  | .xtopk f => xtopkResult f w eff
  | .xcrc f => xcrcResult f w eff
  | .xsort f => xsortResult f w eff
  | _ => { writes := [], fp := 0, sat := false }

/-! ### The queues (R192) -/

/-- The queue of the warp's quadrant holds its four entries: the warp waits before anything else (R192). -/
def View.xfull (t : View) : Bool := 4 ≤ (t.blk.xqueues.getD (t.w.num % 4) []).length

/-- Joins the quadrant's queue; the warp goes on (R192, R193). -/
def View.xqueue (t : View) (i : Instr) (param : List Byte) : Res :=
  let o : Op := { seq := t.w.seq, pc := t.pc, instr := i, since := t.dev.clock, body := .xqueued t.eff param }
  if t.xfull then .wait
  else
    .ok { t with
      blk := { t.blk with xqueues := t.blk.xqueues.modify (t.w.num % 4) (fun l => l ++ [t.w.num]) }
      w := { t.w with seq := t.w.seq + 1, ops := t.w.ops ++ [o] } }

/-- The formats XCVT may produce for a source format (R197). -/
def xcvtFormats (typ : BitVec 4) : List Nat := if typ == 5 then [0, 1, 2] else [1, 2, 3, 4, 5, 6, 7, 8, 9]

/-- The count rule of XCVT (R177, R197, R198). -/
def xcvtCount (f : FormE) (fmt : BitVec 4) : Bool :=
  let rd := grpW (f.sub.extractLsb' 2 2)
  let ra := grpW (f.sub.extractLsb' 0 2)
  let n := if f.typ == 5 then 4 * ra else ra * (32 / fmtBits f.typ)
  if fmt == 5 then n == 4 * rd else n == rd * (32 / fmtBits fmt)

/-! ### Meanings -/

/-- XCVT: the record is read and checked as it issues, in the order of R197. -/
def execXcvt (f : FormE) (s : State) : Host.Outcome State Fault Refusal :=
  issue (.xcvt f) (fun t =>
    let va := t.w.rs f.obj.toNat
    if t.xfull then .wait
    else if va.toNat % 32 != 0 then .fault ((flt 0x0A 0x00).at va)
    else (t.readVa va 32).then (fun t1 bs =>
      if !Param.legal bs (xcvtFormats f.typ) then .fault (flt 0x02 0x05)
      else if !xcvtCount f (Param.ofBytes bs).fmt then .fault (flt 0x02 0x04)
      else t1.xqueue (.xcvt f) bs)) s
/-- XPACK (R199). -/
def execXpack (f : FormW) (s : State) : Host.Outcome State Fault Refusal := issue (.xpack f) (fun t => t.xqueue (.xpack f) []) s
/-- XUNPACK (R200). -/
def execXunpack (f : FormW) (s : State) : Host.Outcome State Fault Refusal := issue (.xunpack f) (fun t => t.xqueue (.xunpack f) []) s
/-- XTOPK (R201). -/
def execXtopk (f : FormE) (s : State) : Host.Outcome State Fault Refusal := issue (.xtopk f) (fun t => t.xqueue (.xtopk f) []) s
/-- XCRC (R202). -/
def execXcrc (f : FormA) (s : State) : Host.Outcome State Fault Refusal := issue (.xcrc f) (fun t => t.xqueue (.xcrc f) []) s
/-- XSORT (R203). -/
def execXsort (f : FormE) (s : State) : Host.Outcome State Fault Refusal := issue (.xsort f) (fun t => t.xqueue (.xsort f) []) s

/-- The quadrant from which the pipe of a core accepted last. Before its first acceptance, for which the spec gives no start, it is
quadrant 0 (R192; log entry 70). -/
def State.pipeLast (s : State) (core : Nat) : Nat := ((s.pipes.find? (fun x => x.1 == core)).map Prod.snd).getD 0

/-- The quadrant whose head the pipe accepts next: round robin after the last (R192). -/
def Block.nextQuad (b : Block) (last : Nat) : Option Nat :=
  ([1, 2, 3, 4].map (fun k => (last + k) % 4)).find? (fun q => !(b.xqueues.getD q []).isEmpty)

/-- A warp's oldest operation in the queue, with its mask and parameter record. -/
def Warp.xqueuedOp (w : Warp) : Option (Op × LaneMask × List Byte) :=
  w.ops.findSome? (fun o =>
    match o.body with
    | .xqueued eff param => some (o, eff, param)
    | _ => none)

/-- A warp's oldest operation in the pipe, with what it writes. -/
def Warp.xacceptedOp (w : Warp) : Option (Op × List RegWrite × Word32 × Word32) :=
  w.ops.findSome? (fun o =>
    match o.body with
    | .xaccepted ws fp sat => some (o, ws, fp, sat)
    | _ => none)

/-- Replaces the warp's operation of the same place in program order. -/
def Warp.setOp (w : Warp) (o : Op) : Warp := { w with ops := w.ops.map (fun x => if x.seq == o.seq then o else x) }

/-- The warp's operation at a place in program order is over. -/
def Warp.dropOp (w : Warp) (seq : Nat) : Warp := { w with ops := w.ops.filter (fun x => x.seq != seq) }

/-- XFORM_ACCEPT: the pipe of a core accepts the head of one queue and reads its sources (R192, R193). -/
def execXformAccept (core : Nat) (s : State) : Host.Outcome State Fault Refusal :=
  match s.block core with
  | none => s.same
  | some b =>
    match b.nextQuad (s.pipeLast core) with
    | none => s.same
    | some q =>
      match (b.xqueues.getD q []).head?.bind b.warp with
      | none => s.same
      | some w =>
        match w.xqueuedOp with
        | some (o, eff, param) =>
          let r := xformResult o.instr w eff param
          let b1 := b.setWarp (w.setOp { o with body := .xaccepted r.writes r.fp (flagIf r.sat flagSAT) })
          .next { s.setBlock core { b1 with
              xqueues := b1.xqueues.modify q List.tail, xpipe := b1.xpipe.modify q (fun l => l ++ [w.num]) } with
            pipes := (core, q) :: s.pipes.filter (fun x => x.1 != core) }
        | none => s.same

/-- XFORM_COMPLETE: an accepted instruction of a warp writes its results and flags, in the order of its quadrant
(R192, R193). -/
def execXformComplete (core warp : Nat) (s : State) : Host.Outcome State Fault Refusal :=
  match s.block core with
  | none => s.same
  | some b =>
    match b.warp warp with
    | none => s.same
    | some w =>
      match w.xacceptedOp with
      | some (o, writes, fp, sat) =>
        if (b.xpipe.getD (warp % 4) []).head? == some warp then
          let w1 : Warp := (w.addFlags fp (sat != 0)).dropOp o.seq
          .next ((s.setBlock core { b.setWarp w1 with xpipe := b.xpipe.modify (warp % 4) List.tail }).writeRegs core warp writes)
        else s.same
      | none => s.same

end Sys2Proof.Machine
end

