-- ==== Sys2Proof/Machine/Jobs.lean ====
section
/-!
DEFINITION. Asynchronous copies: CPY, CPYG, CPYW and the events of their jobs (spec 11 R281 to R287; spec 10 R254
to R257; spec 17 R413; spec 18 R434, R507).
-/
namespace Sys2Proof.Machine

/-! ### The descriptor (R281) -/

def Job.word (j : Job) (k : Nat) : Nat := (j.words.getD k 0).toNat
def Job.goff (j : Job) : Int := (j.word 0 : Int) + j.disp
def Job.soff (j : Job) : Nat := j.word 1 % 2 ^ 16
def Job.bar (j : Job) : Nat := j.word 1 / 2 ^ 16
def Job.rb (j : Job) : Nat := j.word 2 % 2 ^ 16
def Job.nr (j : Job) : Nat := j.word 2 / 2 ^ 16
def Job.gstr (j : Job) : Nat := j.word 3
def Job.sstr (j : Job) : Nat := j.word 4 % 2 ^ 16
def Job.coff (j : Job) : Nat := j.word 5 % 2 ^ 18
def Job.crcOn (j : Job) : Bool := (j.word 5).testBit 31
def Job.tr (j : Job) : Bool := (j.word 6).testBit 0
def Job.es (j : Job) : Nat := 2 ^ (j.word 6 / 2 % 4)

/-- No row of a CPYG for this lane. -/
def noRow : Word32 := 0xFFFFFFFF

/-- Rows the job writes: NR, or RB ÷ ES of a transposed block (R282), or one for each lane of a CPYG (R283). -/
def Job.count (j : Job) : Nat := if j.gather then 32 else if j.tr then j.rb / j.es else j.nr

/-- The bytes of row `i` as written; a lane of a CPYG that names no row has none. -/
def Job.rowLen (j : Job) (i : Nat) : Nat :=
  if j.gather then (if j.rows.getD i noRow == noRow then 0 else j.rb) else if j.tr then j.nr * j.es else j.rb

/-- The object offset of global row `i` (R282, R283). -/
def Job.gOff (j : Job) (i : Nat) : Int := j.goff + (if j.gather then ((j.rows.getD i 0).toNat : Int) else (i * j.gstr : Nat))

/-- The scratchpad offset of scratchpad row `i`. -/
def Job.sOff (j : Job) (i : Nat) : Nat := 16 * (j.soff + i * j.sstr)

/-- The global rows of the job: number and offset; each has RB bytes. -/
def Job.globalRows (j : Job) : List (Nat × Int) :=
  if j.gather then ((List.range 32).filter (fun l => j.rows.getD l noRow != noRow)).map (fun l => (l, j.gOff l))
  else (List.range j.nr).map (fun i => (i, j.gOff i))

/-- Step 1 of R284: the limits of R281. -/
def Job.descOk (j : Job) : Bool :=
  16 ≤ j.rb && j.rb ≤ 32768 && j.rb % 16 == 0 && 1 ≤ j.nr && (!j.gather || (j.nr == 1 && !j.tr)) &&
    j.word 4 / 2 ^ 16 == 0 && j.word 5 / 2 ^ 18 % 2 ^ 13 == 0 && j.word 6 / 8 == 0 && j.word 7 == 0 && j.word 6 / 2 % 4 != 3 &&
    (!j.tr || (!j.toGlobal && (j.rb / j.es) % 16 == 0 && (j.nr * j.es) % 16 == 0))

/-- A fault of a row; a CPYG names its lane. -/
def Job.rowFault (j : Job) (i : Nat) (f : FaultInfo) : FaultInfo := if j.gather then f.onLane i else f

/-- The checks of a job at issue, in the order of R284. -/
def Job.check (j : Job) (t : View) : Except FaultInfo ObjEntry := do
  let l := t.blk.launch
  let _ ← require j.descOk (flt 0x02 0x06)
  let e ← t.dev.objCheck t.core l.ctx j.obj objSpaces (if j.toGlobal then .write else .read) []
  let _ ← eachLane (fun (r : Nat × Int) =>
    require (0 ≤ r.2 && r.2 + j.rb ≤ e.len) (j.rowFault r.1 ((flt 0x07 0x00).at (e.base + BitVec.ofInt 64 r.2)))) j.globalRows
  let size := t.blk.scratchSize
  let _ ← require ((List.range j.count).all (fun i => j.rowLen i == 0 || j.sOff i + j.rowLen i ≤ size)) (flt 0x07 0x01)
  let _ ← require (!j.crcOn || 4 * j.coff + 4 ≤ size) (flt 0x07 0x01)
  let _ ← require (j.bar == 0xFFFF || 16 * j.bar + 16 ≤ size) (flt 0x07 0x01)
  let _ ← require (j.goff % 16 == 0 && j.gstr % 16 == 0) (flt 0x0A 0x00)
  let _ ← eachLane (fun (r : Nat × Int) => require (r.2 % 16 == 0) (j.rowFault r.1 (flt 0x0A 0x00))) j.globalRows
  .ok e

/-! ### The footprint (R254, R282) -/

/-- A virtual range cut where pages of 64 KB meet. -/
def pieces (va n : Nat) : List (Nat × Nat) :=
  if n = 0 then []
  else (List.range ((va + n - 1) / 65536 - va / 65536 + 1)).map (fun i =>
    let lo := max va (65536 * (va / 65536 + i))
    (lo, min (va + n) (65536 * (va / 65536 + i + 1)) - lo))

/-- The virtual ranges of the global rows; of a MASKPACK source, the headers and slots of its chunks (R231). -/
def Job.globalVas (j : Job) (e : ObjEntry) : List (Nat × Nat) :=
  j.globalRows.flatMap (fun r =>
    let x := r.2.toNat
    if e.layout == 1 then
      (List.range ((x + j.rb - 1) / 2048 - x / 2048 + 1)).flatMap (fun i =>
        let v := packedVas e (2048 * (x / 2048 + i))
        pieces v.1.toNat 64 ++ pieces v.2.toNat 2048)
    else pieces (e.base.toNat + x) j.rb)

/-- The job with its footprint as translated at issue (R254): the bytes of memory that its pages map, through the aperture of the
device itself too; pages without a physical range leave it unknown. -/
def Job.footprint (j : Job) (s : State) (ctx : Nat) (e : ObjEntry) : Job :=
  let found := (j.globalVas e).map (fun p => (p.2, (s.walk ctx (BitVec.ofNat 64 p.1) [610])))
  let glob := found.filterMap (fun p =>
    match p.2 with
    | .ok lf => let lo := ((s.placeOf lf.pa).pa?).getD lf.pa; some ({ phys := true, lo := lo, hi := lo + p.1 : Range })
    | .error _ => none)
  let dfr := found.any (fun p =>
    match p.2 with
    | .ok lf => pteD lf.pte
    | .error _ => true)
  let scr := (List.range j.count).filterMap (fun i =>
    if j.rowLen i = 0 then none else some ({ phys := false, lo := j.sOff i, hi := j.sOff i + j.rowLen i : Range }))
  let crc : List Range := if j.crcOn then [{ phys := false, lo := 4 * j.coff, hi := 4 * j.coff + 4 }] else []
  { j with
    reads := if j.toGlobal then scr else glob
    writes := (if j.toGlobal then glob else scr) ++ crc
    unknown := glob.length != found.length
    dfr := dfr && !j.toGlobal }

/-- The scratchpad bytes of the barrier object that the job credits at its end (R282). -/
def Job.barRange (j : Job) : List Range := if j.bar == 0xFFFF then [] else [{ phys := false, lo := 16 * j.bar, hi := 16 * j.bar + 16 }]

/-- Whether a scratchpad range touches the named banks. -/
def Range.inBanks (r : Range) (banks : BitVec 48) : Bool :=
  !r.phys && (List.range ((r.hi - r.lo) / 4 + 1)).any (fun i => r.lo + 4 * i < r.hi && banks.getLsbD (bankOf (r.lo + 4 * i)))

/-- Whether the job reads, writes or credits bytes of the named banks (R215). -/
def Job.usesBanks (j : Job) (banks : BitVec 48) : Bool := (j.reads ++ j.writes ++ j.barRange).any (fun r => r.inBanks banks)

/-- Two ranges share a byte. -/
def Range.meets (a b : Range) : Bool := a.phys == b.phys && a.lo < b.hi && b.lo < a.hi

/-- Whether the footprint has a global range. -/
def Job.global (j : Job) : Bool := j.unknown || (j.reads ++ j.writes).any Range.phys

/-- Two jobs of a block that R255 keeps apart: their footprints overlap in bytes that one of them writes; an unknown page
meets every global range (R254). -/
def Job.conflicts (a b : Job) : Bool :=
  (a.unknown && b.global) || (b.unknown && a.global) ||
    a.writes.any (fun x => (b.reads ++ b.writes).any x.meets) || a.reads.any (fun x => b.writes.any x.meets)

/-- The ranges of bytes of memory and of this core's scratchpad that an access touches. -/
def Loc.ranges (loc : Loc) (core n : Nat) : List Range :=
  (loc.spans n).map (fun x => { phys := true, lo := x.1, hi := x.1 + x.2 }) ++
    (match loc.scratch? with
     | some (c, off) => if c == core then [{ phys := false, lo := off, hi := off + n }] else []
     | none => [])

/-- Whether bytes that are written meet what the job reads (R254, R255). -/
def Job.readsAny (j : Job) (rs : List Range) : Bool := rs.any (fun r => j.reads.any r.meets || (j.unknown && !j.toGlobal && r.phys))

/-- Whether bytes that another job writes meet the job's footprint (R254, R255). -/
def Job.meetsAny (j : Job) (rs : List Range) : Bool := rs.any (fun r => (j.reads ++ j.writes).any r.meets || (j.unknown && r.phys))

/-- Whether an earlier store or atomic of the issuing warp into the job's read footprint is not yet performed (R255). -/
def Job.awaitsStores (j : Job) (core : Nat) (w : Warp) : Bool :=
  w.buf.any (fun e =>
    match e with
    | .fence => false
    | .store o => o.seq < j.seq && j.readsAny (o.loc.ranges core o.bytes.length)) ||
    w.atomics.any (fun a => a.op.seq < j.seq && a.op.lanes.any (fun x => j.readsAny (x.1.ranges core x.2)))

/-- The bytes of memory that a packet of stores writes. -/
def netRanges (n : NetStore) : List Range := n.stores.map (fun y => { phys := true, lo := y.1, hi := y.1 + y.2.length })

/-- Whether a store or drain by fabric packet to this device's memory comes before the job: the issuing warp's earlier ones into
what it reads, and earlier drains of the block, which are jobs too, into its footprint (R254, R255, R376). -/
def State.jobAwaitsNet (s : State) (core : Nat) (b : Block) (j : Job) : Bool :=
  let older (d : Option Nat) : Bool := (d.map (fun k => decide (k < j.ident))).getD false
  s.netStores.any (fun n => n.sender == s.deviceNo && s.requests.any (fun r =>
    r.ident == n.ident && r.core == core && r.saved.isNone &&
      ((r.warp == j.warp && r.ident < j.ident && r.drain.isNone && j.readsAny (netRanges n)) || (older r.drain && j.meetsAny (netRanges n))))) ||
    b.warps.any (fun w => w.pushes.any (fun p =>
      match p.msg with
      | .store n => older p.drain && p.dest == s.deviceNo && j.meetsAny (netRanges n)
      | _ => false))

/-- Whether the stores of two packets meet. -/
def netsMeet (a b : NetStore) : Bool := (netRanges a).any (fun r => (netRanges b).any r.meets)

/-- Whether an earlier drain of the block than `d`, on its way or not yet sent, meets a drain's packet (R255). -/
def State.earlierDrain (s : State) (core : Nat) (b : Block) (d : Nat) (n : NetStore) : Bool :=
  let older (k : Option Nat) : Bool := (k.map (fun k => decide (k < d))).getD false
  b.warps.any (fun w => w.pushes.any (fun p =>
    match p.msg with
    | .store m => older p.drain && p.dest == s.deviceNo && netsMeet m n
    | _ => false)) ||
  s.netStores.any (fun m => m.sender == s.deviceNo && netsMeet m n && s.requests.any (fun r =>
    r.ident == m.ident && r.core == core && r.saved.isNone && older r.drain))

/-- Whether an earlier job of the block, a drain too, comes before a drain's packet that has arrived (R255). -/
def State.netAwaitsJob (s : State) (n : NetStore) : Bool :=
  s.requests.any (fun r => r.ident == n.ident && n.sender == s.deviceNo && r.saved.isNone &&
    (match r.drain, s.block r.core with
     | some d, some b => b.jobs.any (fun j => j.ident < d && j.meetsAny (netRanges n)) || s.earlierDrain r.core b d n
     | _, _ => false))

/-! ### Moving bytes (R282, R286) -/

/-- What one piece of a job's work ends as: a result, a wait (R128, R261), or a failure (R286). -/
inductive Piece (α : Type) where
  | ok (x : α)
  | holds
  | fails (f : FaultInfo)

/-- The leaf of an address that global row `row` of the job uses: one translation of a page for a row, checked for each access of it
(R230, R384, R386, R391). -/
def State.jobLeaf (s : State) (l : Launch) (k : AccKind) (packed : Bool) (j : Job) (row : Nat) (va : Addr) : Except FaultInfo (Leaf × Job) :=
  match j.trans.find? (fun p => p.row == row && p.page == va.toNat / 65536) with
  | some p =>
    let d : Leaf := { pa := p.pa + va.toNat % 65536, pte := p.pte }
    (pageCheck k packed false l.sys va d).map (fun _ => (d, j))
  | none => do
    let d ← s.walk l.ctx va [620]
    let _ ← pageCheck k packed false l.sys va d
    .ok (d, { j with trans := j.trans ++ [{ row := row, page := va.toNat / 65536, pa := d.pa - va.toNat % 65536, pte := d.pte }] })

/-- The place of object offset `x` in global row `row` of the job as it runs, with whether it lies on a deferred page (R286). -/
def State.jobPlace (s : State) (l : Launch) (e : ObjEntry) (k : AccKind) (j : Job) (row x : Nat) : Except FaultInfo (Loc × Bool × Job) :=
  if e.layout == 1 then do
    let v := packedVas e x
    let h ← s.jobLeaf l k false j row v.1
    let d ← s.jobLeaf l k true h.2 row v.2
    .ok (s.chunkPlace e.cpol h.1 d.1 (x % 2048), pteD h.1.pte, d.2)
  else do
    let d ← s.jobLeaf l k false j row (e.base + BitVec.ofNat 64 x)
    .ok (s.placeAt d.1 e.cpol, pteD d.1.pte, d.2)

/-- A place that a job of a core must wait for: a mode change of its DRAM region holds it (R128), or a release toward the block
that is not over (R246). -/
def State.placeHeld (s : State) (core : Nat) (loc : Loc) (n : Nat) : Bool := s.locHeld loc n || s.earlyHeld core 64 loc n

/-- Reads `n` bytes of the object for a global row. Bytes of another device are free, and the request may fail (R373, log entry 5). -/
def State.jobRead (s : State) (core : Nat) (b : Block) (e : ObjEntry) (j : Job) (row x n salt : Nat) : Piece (List Byte × Job × State) :=
  let va := e.base + BitVec.ofNat 64 x
  match s.jobPlace b.launch e .read j row x with
  | .error f => .fails f
  | .ok (loc, dfr, j1) =>
    if (dfr && b.commit.isSome) || s.placeHeld core loc n then .holds
    else
      match loc with
      | .remote _ _ =>
        if Config.pick s.tick [30, salt, x] % 2 == 0 then .fails ((flt 0x0E 0x03).at va)
        else .ok ((List.range n).map (fun i => BitVec.ofNat 8 (Config.pick s.tick [31, salt, x + i])), j1, s)
      | _ =>
        let s1 := s.visit false loc n
        match s1.readLoc core j.warp loc n with
        | .error f => .fails (f.at va)
        | .ok bs => .ok (bs, j1, s1)

/-- The 16 bytes of unit `u` of row `r` that the job writes to the scratchpad: a run of its global row, or elements of a column of
its source (R282). -/
def State.jobUnit (s : State) (core : Nat) (b : Block) (e : ObjEntry) (j : Job) (r u : Nat) : Piece (List Byte × Job × State) :=
  if j.tr then
    (List.range (16 / j.es)).foldl (fun acc i =>
      match acc with
      | .ok (bs, j1, s1) =>
        let g := 16 * u / j.es + i
        match s1.jobRead core b e j1 g ((j.gOff g).toNat + r * j.es) j.es u with
        | .ok (xs, j2, s2) => .ok (bs ++ xs, j2, s2)
        | x => x
      | x => x) (.ok ([], j, s))
  else s.jobRead core b e j r ((j.gOff r).toNat + 16 * u) 16 u

/-- Moves unit `u` of row `r`, 16 bytes: the bytes moved, the job with its translations, the state with the bytes written. -/
def State.jobMove (s : State) (core : Nat) (b : Block) (j : Job) (r u : Nat) : Piece (List Byte × Job × State) :=
  match (if j.entry.isEmpty then s.objWords core b.launch.ctx j.obj [630] else .ok j.entry) with
  | .error f => .fails f
  | .ok ws =>
    let e := objOfWords ws
    let j0 := { j with entry := ws }
    let so := j.sOff r + 16 * u
    if j.toGlobal then
      match s.readLoc core j.warp (.bank core so) 16 with
      | .error f => .fails f
      | .ok bs =>
        let x := (j.gOff r).toNat + 16 * u
        let va := e.base + BitVec.ofNat 64 x
        match s.jobPlace b.launch e .write j0 r x with
        | .error f => .fails { f with kind := 1 }
        | .ok (loc, _, j1) =>
          if s.placeHeld core loc 16 then .holds
          else
            match loc with
            | .remote _ _ => if Config.pick s.tick [32, x] % 2 == 0 then .fails ((flt 0x0E 0x03).at va) else .ok (bs, j1, s)
            | .lost => .fails ((flt 0x0E 0x03).at va)
            | _ => .ok (bs, j1, s.writeLoc core j.warp loc bs)
    else
      match s.jobUnit core b e j0 r u with
      | .ok (bs, j1, s1) => .ok (bs, j1, s1.writeLoc core j.warp (.bank core so) bs)
      | x => x

/-- The units of a row. -/
def Job.unitsOf (j : Job) (r : Nat) : Nat := j.rowLen r / 16

/-- Whether a unit has been moved. -/
def Job.hasMoved (j : Job) (r u : Nat) : Bool := r < j.row || j.moved.any (fun m => m.1 == (r, u))

/-- The unit that an event moves next: any unit not yet moved (R254); the lowest one stands in where the choice falls on a unit
that has been. -/
def Job.nextUnit (j : Job) (s : State) (salt : Nat) : Nat × Nat :=
  let r := j.row + Config.pick s.tick [34, salt] % (j.count - j.row)
  let u := Config.pick s.tick [35, salt] % (max 1 (j.unitsOf r))
  if u < j.unitsOf r && !j.hasMoved r u then (r, u)
  else (j.row, ((List.range (j.unitsOf j.row)).find? (fun k => !j.hasMoved j.row k)).getD 0)

/-- The job after its complete rows: each enters the CRC in ascending byte order (R282), and its translations are no longer held. -/
def Job.settleRows (j : Job) : Nat → Job
  | 0 => j
  | k + 1 =>
    if j.row < j.count && (List.range (j.unitsOf j.row)).all (j.hasMoved j.row) then
      let bs := (List.range (j.unitsOf j.row)).flatMap (fun u => ((j.moved.find? (fun m => m.1 == (j.row, u))).map Prod.snd).getD [])
      Job.settleRows { j with
        row := j.row + 1, moved := j.moved.filter (fun m => m.1.1 != j.row), crc := bs.foldl crcByte j.crc
        trans := j.trans.filter (fun p => j.tr || p.row != j.row) } k
    else j

/-- The job after a unit has been moved. -/
def Job.advance (j : Job) (r u : Nat) (bs : List Byte) : Job :=
  ({ j with moved := j.moved ++ [((r, u), bs)] }).settleRows (j.count - j.row + 1)

/-- Skips rows without bytes: lanes of a CPYG that name no row. -/
def Job.skip (j : Job) : Job := j.settleRows (j.count - j.row + 1)

/-- Every row has been written. -/
def Job.over (j : Job) : Bool := j.skip.count ≤ j.skip.row

/-- The bytes a job writes, its CRC word apart. -/
def Job.bytes (j : Job) : Nat := ((List.range j.count).map j.rowLen).sum

/-! ### The job list -/

/-- Replaces or removes the job at a position of a block's list. -/
def State.putJob (s : State) (core k : Nat) (j : Option Job) : State :=
  match s.block core with
  | none => s
  | some b =>
    s.setBlock core { b with jobs := match j with
      | some x => b.jobs.set k x
      | none => b.jobs.eraseIdx k }

/-- Adds to a block counter (R426). -/
def State.countBlock (s : State) (core k n : Nat) : State :=
  match s.block core with
  | none => s
  | some b => s.setBlock core { b with counters := Cells.set b.counters k (Cells.get b.counters k + BitVec.ofNat 64 n) }

/-- Moves up to `n` units of the job at position `k`; a unit that cannot move is passed over. -/
def State.jobRun (s : State) (core k : Nat) : Nat → State
  | 0 => s
  | n + 1 =>
    match s.block core with
    | none => s
    | some b =>
      match b.jobs[k]? with
      | none => s
      | some j0 =>
        let j := j0.skip
        if j.count ≤ j.row then s.putJob core k (some j)
        else
          let x := j.nextUnit s n
          match s.jobMove core b j x.1 x.2 with
          | .ok (bs, j1, s1) =>
            let s2 := s1.touchAll (some core) b.launch.ctx
              ((j1.trans.drop j.trans.length).map (fun p => (BitVec.ofNat 64 (65536 * p.page), [620])))
            ((s2.putJob core k (some (j1.advance x.1 x.2 bs))).countBlock core 6 16).jobRun core k n
          | _ => (s.putJob core k (some j)).jobRun core k n

/-- The fault of a job: raised later in its warp, or written to the block entry when the warp is gone (R286, R434). -/
def State.jobFails (s : State) (core : Nat) (j : Job) (f : FaultInfo) : State :=
  let g : FaultInfo := { f with addr := some j.pc }
  match s.block core with
  | none => s
  | some b =>
    match b.warp j.warp with
    | none => s
    | some w =>
      if w.life == .live then s.mapWarp core j.warp (fun x => { x with jobFault := some (x.jobFault.getD g) })
      else s.putJobFault core b.launch j.warp g

/-- The end of a job: its CRC word, its credit (R282, R413), and it leaves the list. -/
def State.jobEnd (s : State) (core k : Nat) (j : Job) : State :=
  let s1 := if j.crcOn then s.writeLoc core j.warp (.bank core (4 * j.coff)) (leBytes 4 (j.crc ^^^ 0xFFFFFFFF).toNat) else s
  let s2 := s1.putJob core k none
  if j.bar == 0xFFFF then s2
  else
    let loc : Loc := .bank core (16 * j.bar)
    match s2.block core, s2.readLoc core j.warp loc 16 with
    | some b, .ok bs =>
      if (BarObj.ofBytes bs).exp == 0 then s2.jobFails core j (flt 0x0D 0x05)
      else s2.rmwBar core j.warp b.launch.ctx b.launch.sys loc (fun o => { o with bal := o.bal - BitVec.ofNat 32 j.bytes })
    | _, .error f => s2.jobFails core j f
    | _, _ => s2

/-! ### Meanings -/

/-- The values of v(r) in the lanes that have not exited; registers of exited lanes are never read (R119; log entry 34). -/
def View.laneWords (t : View) (r n : Nat) (absent : Word32) : List Word32 :=
  (List.range n).map (fun l => if t.w.liveLanes.getLsbD l then t.w.rv r l else absent)

/-- Whether the job's scratchpad ranges or its barrier object touch a bank under a mode change: the instruction waits for it (R215). -/
def Job.bankBusy (j : Job) (b : Block) : Bool :=
  !b.bankChanges.isEmpty &&
    ((List.range j.count).any (fun i => (List.range (j.rowLen i / 16)).any (fun u => (List.range 4).any (fun k => b.offBusy ((j.sOff i + 16 * u + 4 * k : Nat) : Int)))) ||
      (j.crcOn && b.offBusy ((4 * j.coff : Nat) : Int)) ||
      (j.bar != 0xFFFF && (List.range 4).any (fun k => b.offBusy ((16 * j.bar + 4 * k : Nat) : Int))))

/-- CPY and CPYG: the checks of R284, a place among the 64 jobs, and the job joins the list (R285). -/
def View.startJob (t : View) (f : FormE) (gather : Bool) : Res :=
  let rows : List Word32 :=
    if !gather then [] else if f.a == 0 then (List.range 32).map (fun l => if t.w.liveLanes.getLsbD l then 0 else noRow)
    else t.laneWords f.a.toNat 32 noRow
  let j : Job :=
    { gather := gather, toGlobal := f.sub == 1, words := t.laneWords f.d.toNat 8 0, rows := rows, warp := t.w.num, pc := t.pc,
      seq := t.w.seq, ident := t.dev.nextIdent, obj := objNum f.obj f.ext, entry := [], disp := immDisp f.imm, state := .waiting, row := 0,
      moved := [], crc := 0xFFFFFFFF, since := 0, trans := [], reads := [], writes := [], unknown := false, dfr := false }
  if j.descOk && j.bankBusy t.blk then .wait
  else
    match j.check t with
    | .error e => .fault e
    | .ok e =>
      if 64 ≤ t.blk.jobs.length || t.w.fence.isSome then .wait
      else
        let ws := match t.dev.objWords t.core t.blk.launch.ctx j.obj [] with
          | .ok ws => ws
          | .error _ => []
        let j1 := ({ j with entry := ws }).footprint t.dev t.blk.launch.ctx e
        .ok { t with
          dev := { t.dev.touchObj t.core t.blk.launch.ctx j.obj [] with nextIdent := t.dev.nextIdent + 1 }
          blk := { t.blk with jobs := t.blk.jobs ++ [j1] }
          w := { t.w with seq := t.w.seq + 1 } }

/-- CPY (R282). -/
def execCpy (f : FormE) (s : State) : Host.Outcome State Fault Refusal := issue (.cpy f) (fun t => t.startJob f false) s
/-- CPYG (R283). -/
def execCpyg (f : FormE) (s : State) : Host.Outcome State Fault Refusal := issue (.cpyg f) (fun t => t.startJob f true) s

/-- CPYW: waits until at most n of the warp's jobs are incomplete; a fault of one is raised first (R286, R287). -/
def execCpyw (f : FormH) (s : State) : Host.Outcome State Fault Refusal :=
  issue (.cpyw f) (fun t =>
    match t.w.jobFault with
    | some e => .faultIn (t.setW { t.w with jobFault := none }) { e with addr := none }
    | none => if (f.fn.extractLsb' 0 6).toNat < (t.blk.jobs.filter (fun j => j.warp == t.w.num)).length then .wait else .ok t) s

/-- JOB_START: a job starts when no earlier job of its block overlaps it, the stores and drains that come before it are performed,
and no commit holds its deferred reads (R255, R261, R285). -/
def execJobStart (core job : Nat) (s : State) : Host.Outcome State Fault Refusal :=
  match s.block core with
  | none => s.same
  | some b =>
    match b.jobs[job]? with
    | none => s.same
    | some j =>
      if j.state != .waiting || (b.jobs.take job).any j.conflicts || ((b.warp j.warp).map (j.awaitsStores core)).getD false ||
        s.jobAwaitsNet core b j || (j.dfr && b.commit.isSome)
      then s.same
      else .next (s.putJob core job (some { j with state := .running }))

/-- JOB_COMPLETE: a running job moves some of its bytes, and completes when it has moved the last (R282, R285). -/
def execJobComplete (core job : Nat) (s : State) : Host.Outcome State Fault Refusal :=
  match (s.block core).bind (fun b => b.jobs[job]?) with
  | none => s.same
  | some j =>
    if j.state != .running then s.same
    else
      let left := j.bytes / 16
      let s1 := s.jobRun core job (1 + Config.pick s.tick [33] % (left + 1))
      match (s1.block core).bind (fun b => b.jobs[job]?) with
      | none => s.same
      | some j1 => if j1.over then .next (s1.jobEnd core job j1.skip) else .next s1

/-- What stops a running job at a unit that it would move. -/
def State.jobStop (s : State) (core job : Nat) : Option (Block × Job × FaultInfo) :=
  match s.block core with
  | none => none
  | some b =>
    match b.jobs[job]? with
    | none => none
    | some j0 =>
      let j := j0.skip
      if j.state != .running || j.over then none
      else
        let x := j.nextUnit s 0
        match s.jobMove core b j x.1 x.2 with
        | .fails f => some (b, j, f)
        | _ => none

/-- JOB_SUSPEND: the job meets a page that is not resident; a fault record is posted and the job waits, to go on at its first row
not yet written (R285, R286). -/
def execJobSuspend (core job : Nat) (s : State) : Host.Outcome State Fault Refusal :=
  match s.jobStop core job with
  | none => s.same
  | some (b, j, f) =>
    if !f.replayable then s.same
    else
      let l := b.launch
      let rcd : FaultRec :=
        { va := f.va.getD 0, cls := f.cls, detail := f.detail, src := 1, kind := if j.toGlobal then 1 else 0, block := l.block, warp := j.warp, core := core }
      .next ((s.putJob core job (some { j with state := .suspended, moved := [], trans := [], since := s.clock })).postFault l.ctx l.sys rcd)

/-- JOB_FAULT: a page refuses the job or its data holds an uncorrectable error; the job stops (R286). -/
def execJobFault (core job : Nat) (s : State) : Host.Outcome State Fault Refusal :=
  match s.jobStop core job with
  | none => s.same
  | some (_, j, f) => if f.replayable then s.same else .next ((s.putJob core job none).jobFails core j f)

/-! ### Mode changes of banks (R214, R215) -/

/-- BANK_MODE_CHANGE_COMPLETE (R214, R215, R294): the oldest change in flight; once the block's earlier accesses to the named banks and its jobs there are over,
the banks take their new mode; a bank that changes is empty. -/
def execBankModeChangeComplete (core : Nat) (s : State) : Host.Outcome State Fault Refusal :=
  match s.block core with
  | none => s.same
  | some b =>
    match b.bankChanges with
    | [] => s.same
    | c :: rest =>
      if b.warps.any (fun w => w.usesBanks core c.banks) || b.jobs.any (fun j => j.usesBanks c.banks)
      then s.same
      else
        let modes := newModes b.bankMode c.banks c.mode 48
        let changed (k : Nat) : Bool := c.banks.getLsbD k && Cells.get b.bankMode k != c.mode
        .next { (s.setBlock core { b with
            bankMode := modes, bankChanges := rest
            scratch := clearBanks b.scratch b.bankMode modes c.banks
            fifo := b.fifo.filter (fun e => !changed e.bank)
            fifoWait := b.fifoWait.filter (fun x => !changed x.1)
            warps := b.warps.map (fun w => w.bankEnds changed) }) with
          bad := s.bad.filter (fun p =>
            match p with
            | .scratch d w => !(d == core && changed (bankOf (4 * w)))
            | .fifo d k _ => !(d == core && changed k)
            | _ => true) }

end Sys2Proof.Machine
end

