-- ==== Sys2Proof/Machine/Deferred.lean ====
section
/-!
DEFINITION. Deferred stores and commits: DST, COMMIT, and the events of the cataloguers and conservators (spec 11
R288 to R292; spec 10 R259 to R263; spec 13 R334 to R341; spec 03 R68, R69; spec 18 R445).
-/
namespace Sys2Proof.Machine

/-! ### Operators (R289, R336, R68, R69) -/

/-- Operators on a 64-bit pair. -/
def op64 (op : Nat) : Bool := [1, 15, 16, 17, 19].contains op

/-- The value of a record. -/
def recValue (r : DefRec) : Nat := r.lo.toNat + (if op64 r.op.toNat then 2 ^ 32 * r.hi.toNat else 0)

/-- Lesser or greater FP32 value; a NaN among them gives the canonical NaN (R69). -/
def minMaxNan (mx : Bool) (x y : Nat) : Nat :=
  if (fmtF32.read x).isNan || (fmtF32.read y).isNan then fmtF32.nan else (fmtF32.minMax mx x y).val

/-- One application of an operator to a value (R68, R69, R289); for the exact adds, of a single record. -/
def applyOp (op old v : Nat) : Nat :=
  match op with
  | 0 => (old + v) % 2 ^ 32
  | 1 => (old + v) % 2 ^ 64
  | 2 | 3 => (fmtF32.addBits old v).val
  | 4 | 5 => halfWise (fun x y => (fmtBF16.addBits x y).val) old v
  | 6 => minMaxTyped false 10 old v
  | 7 => minMaxTyped false 11 old v
  | 8 => minMaxNan false old v
  | 9 => minMaxTyped true 10 old v
  | 10 => minMaxTyped true 11 old v
  | 11 => minMaxNan true old v
  | 12 | 15 => old &&& v
  | 13 | 16 => old ||| v
  | 14 | 17 => old ^^^ v
  | _ => v

/-- Operators whose records a bin combines (R336). -/
def coalesces (op : Nat) : Bool := !([2, 3, 4, 5].contains op)

/-- The exact sum of values in a format, rounded once (R68). -/
def exactSum (F : FloatFmt) (vs : List Nat) : Nat :=
  match vs with
  | [] => 0
  | v :: r => (F.deliver (r.foldl (fun a x => (a.add (F.read x)).1) (F.read v))).val

/-- The low and high halfVals of values. -/
def halfVals (hi : Bool) (vs : List Nat) : List Nat := vs.map (fun v => if hi then v / 2 ^ 16 % 2 ^ 16 else v % 2 ^ 16)

/-- The elements of a list in a free order, for the operator and word of `salt` (R69). -/
def shuffled (tick : Nat) (salt : List Nat) (vs : List Nat) : Nat → List Nat
  | 0 => []
  | n + 1 =>
    match vs with
    | [] => []
    | _ :: _ =>
      let k := Config.pick tick (40 :: n :: salt) % vs.length
      vs.getD k 0 :: shuffled tick salt (vs.eraseIdx k) n

/-- The classes of R259 after overwrite, each in ascending code: add, min and max, bitwise. -/
def opOrder : List Nat := [0, 1, 2, 3, 4, 5, 6, 7, 8, 9, 10, 11, 12, 13, 14, 15, 16, 17]

/-- Applies every record of one operator to the old value (R259, R68, R69). -/
def applyAll (tick salt op old : Nat) (rs : List (BitVec 12 × DefRec)) : Nat :=
  let vs := rs.map (fun r => recValue r.2)
  if vs.isEmpty then old
  else
    match op with
    | 2 | 4 => (shuffled tick [op, salt] vs vs.length).foldl (applyOp op) old
    | 3 => exactSum fmtF32 (old :: vs)
    | 5 => exactSum fmtBF16 (halfVals false (old :: vs)) + 2 ^ 16 * exactSum fmtBF16 (halfVals true (old :: vs))
    | _ => vs.foldl (applyOp op) old

/-- Physical address of a record's word. -/
def recPa (r : DefRec) : Nat := 4 * r.word.toNat

/-- The overwrite of a commit that decides, of those of one operator at an address: the last of the highest source (R259, R341;
log entry 75). -/
def lastOverwrite (op a : Nat) (rs : List (BitVec 12 × DefRec)) : Option DefRec :=
  let os := rs.filter (fun r => r.2.op.toNat == op && recPa r.2 == a)
  let top := os.foldl (fun m r => max m r.1.toNat) 0
  ((os.filter (fun r => r.1.toNat == top)).getLast?).map Prod.snd

/-- The word at `pa` after the overwrites of a commit, in ascending code: ovw.b32 of the word, then ovw.b64 of its pair (R259). -/
def overwriteWord (pa old : Nat) (rs : List (BitVec 12 × DefRec)) : Nat :=
  match lastOverwrite 19 (pa / 8 * 8) rs, lastOverwrite 18 pa rs with
  | some r, _ => if pa % 8 == 0 then r.lo.toNat else r.hi.toNat
  | none, some r => r.lo.toNat
  | none, none => old

/-- Applies a commit's records to a unit of 4 or 8 bytes at `pa`: overwrites, then operator after operator (R259). -/
def applyUnit (tick pa size old : Nat) (rs : List (BitVec 12 × DefRec)) : Nat :=
  let first :=
    if size = 4 then overwriteWord pa old rs
    else overwriteWord pa (old % 2 ^ 32) rs + 2 ^ 32 * overwriteWord (pa + 4) (old / 2 ^ 32) rs
  opOrder.foldl (fun x op =>
    let mine (a : Nat) : List (BitVec 12 × DefRec) := rs.filter (fun r => r.2.op.toNat == op && recPa r.2 == a)
    if op64 op then applyAll tick pa op x (mine pa)
    else if size = 4 then applyAll tick pa op x (mine pa)
    else applyAll tick pa op (x % 2 ^ 32) (mine pa) + 2 ^ 32 * applyAll tick (pa + 4) op (x / 2 ^ 32) (mine (pa + 4))) first

/-! ### Tags (R340, R292, R445) -/

/-- The cataloguer of a gallery. -/
def State.cat (s : State) (g : Nat) : Cataloguer :=
  (s.cats.find? (fun c => c.gallery == g)).getD { gallery := g, turn := 0, held := [], timedOut := [], waiting := [], bins := [], sent := [] }

/-- Replaces a cataloguer. -/
def State.setCat (s : State) (c : Cataloguer) : State :=
  { s with cats := c :: s.cats.filter (fun x => x.gallery != c.gallery) }

/-- The source number of a gallery of this device (R338). -/
def State.sourceOf (s : State) (g : Nat) : BitVec 12 := s.deviceNo ++ BitVec.ofNat 6 g

/-- The gallery of a source of this device, when it is one. -/
def State.galleryOfSource (s : State) (src : BitVec 12) : Option Nat :=
  if src.extractLsb' 6 6 == s.deviceNo then some (src.extractLsb' 0 6).toNat else none

/-- A free tag, freely chosen (R340). -/
def State.freeTag (s : State) (g : Nat) : Option (BitVec 12) :=
  let c := s.cat g
  let k := Config.pick s.tick [41, g]
  ((List.range 4096).map (fun i => BitVec.ofNat 12 (k + i))).find? (fun t => !(c.held.contains t || c.timedOut.any (fun x => x.1 == t)))

/-- A block receives a tag: it becomes current, and untagged records of the log take it (R288, R292). -/
def Block.receiveTag (b : Block) (r : TagRef) : Block :=
  { b with
    tag := some r
    log := b.log.map (fun x => if x.tagged then x else { x with rcd := { x.rcd with tag := r.tag }, tagged := true })
    commit := b.commit.map (fun c => { c with wantTag := false }) }

/-- A commit that has its tag closes the current tag and every pending one (R291, R445). -/
def Block.closeTags (b : Block) (now : Word64) : Block :=
  match b.tag, b.commit with
  | some r, some c =>
    { b with tag := none, pendingTags := [], commit := some { c with tags := r :: b.pendingTags, needTag := false, wantTag := true, tagSince := now } }
  | _, _ => b

/-- Holds a tag of a gallery. -/
def State.holdTag (s : State) (g : Nat) (t : BitVec 12) : State := let c := s.cat g; s.setCat { c with held := t :: c.held }

/-- A core's block takes a tag if one is free and no block waits before it; else it waits (R292, R340). -/
def State.obtainTag (s : State) (core : Nat) : State :=
  let g := galleryOf core
  let c := s.cat g
  match (if c.waiting.isEmpty then s.freeTag g else none), s.block core with
  | some t, some b => (s.holdTag g t).setBlock core (b.receiveTag { source := s.sourceOf g, tag := t })
  | none, some _ => s.setCat { c with waiting := c.waiting.filter (fun x => x != core) ++ [core] }
  | _, none => s

/-- A COMMIT that waited for a tag, once the block has one, closes it and every pending one and takes another (R291, R292, R445). -/
def State.closeDue (s : State) (core : Nat) : State :=
  match s.block core with
  | none => s
  | some b => if (b.commit.map Commit.needTag).getD false && b.tag.isSome then (s.setBlock core (b.closeTags s.clock)).obtainTag core else s

/-- Frees the tags of a commit that has ended; with status bit [1] they stay held for 100 ms (R292, R340). -/
def State.freeTags (s : State) (tags : List TagRef) (timedOut : Bool) : State :=
  tags.foldl (fun s r =>
    match s.galleryOfSource r.source with
    | none => s
    | some g =>
      let c := s.cat g
      s.setCat { c with
        held := c.held.filter (fun t => t != r.tag)
        timedOut := if timedOut then addAll c.timedOut [(r.tag, s.clock)] else c.timedOut }) s

/-! ### Bins (R335 to R337) -/

/-- A record enters a bin: combined with an earlier record of the same word, operator and tag where the operator allows
it (R336). -/
def enterBin (rs : List DefRec) (r : DefRec) : List DefRec :=
  let same (x : DefRec) : Bool := x.word == r.word && x.op == r.op && x.tag == r.tag && coalesces r.op.toNat
  match rs.find? same with
  | none => rs ++ [r]
  | some x =>
    let v := applyOp r.op.toNat (recValue x) (recValue r)
    rs.set (rs.findIdx same) { x with lo := BitVec.ofNat 32 v, hi := BitVec.ofNat 32 (v / 2 ^ 32) }

/-- The records in an open bin. -/
def Cataloguer.bin (c : Cataloguer) (k : Nat) : List DefRec := ((c.bins.find? (fun b => b.1 == k)).map Prod.snd).getD []

/-- Replaces an open bin. -/
def Cataloguer.setBin (c : Cataloguer) (k : Nat) (rs : List DefRec) : Cataloguer :=
  let rest := c.bins.filter (fun b => b.1 != k)
  { c with bins := if rs.isEmpty then rest else rest ++ [(k, rs)] }

/-- Bins a channel's conservator holds or that are on their way to it; it accepts up to 4,096 (R339). -/
def State.channelLoad (s : State) (ch : Nat) : Nat :=
  (s.parked.filter (fun b => b.channel == ch)).length + (s.travelling.filter (fun b => b.channel == ch)).length

/-- Whether a bin may be shipped: remote bins always, local ones while the channel accepts them. -/
def State.mayShip (s : State) (k : Nat) : Bool := 256 ≤ k || s.channelLoad k < 4096

/-- Ships an open bin (R337): a local one travels to its conservator, a remote one leaves the model (log entry 5). The
cataloguer notes the destination for each of its tags (R341). -/
def State.shipBin (s : State) (g k : Nat) : State :=
  let c := s.cat g
  let rs := c.bin k
  if rs.isEmpty then s
  else
    let src := s.sourceOf g
    let notes : List CloseMsg := rs.map (fun r => { source := src, tag := r.tag, dest := k })
    let s1 := s.setCat { c.setBin k [] with sent := addAll c.sent notes }
    if k < 256 then { s1 with travelling := s1.travelling ++ [{ channel := k, bin := { source := src, recs := rs } }] } else s1

/-- A full bin that waits for its conservator blocks the cataloguer (R339). -/
def Cataloguer.blocked (c : Cataloguer) : Bool := c.bins.any (fun b => 128 ≤ b.2.length)

/-- Takes up to `n` tagged records of a core's log in confirmation order (R334, R335). -/
def State.takeRecords (s : State) (core : Nat) : Nat → State
  | 0 => s
  | n + 1 =>
    let g := galleryOf core
    let c := s.cat g
    match s.block core with
    | none => s
    | some b =>
      match b.log with
      | [] => s
      | r :: rest =>
        if !r.tagged || c.blocked then s
        else
          let rs := enterBin (c.bin r.bin) r.rcd
          let s1 := (s.setCat (c.setBin r.bin rs)).setBlock core { b with log := rest }
          let s2 := if 128 ≤ rs.length && s1.mayShip r.bin then s1.shipBin g r.bin else s1
          s2.takeRecords core n

/-! ### Commits (R291, R292, R341, R263) -/

/-- The records of a closing tag still stand in the block's log. -/
def Block.logHolds (b : Block) (src : BitVec 12) (c : Commit) : Bool :=
  b.log.any (fun r => r.tagged && c.tags.contains { source := src, tag := r.rcd.tag })

/-- The galleries and open bins that hold a record of a commit's tags. -/
def State.openBins (s : State) (c : Commit) : List (Nat × Nat) :=
  s.cats.flatMap (fun k =>
    let src := s.sourceOf k.gallery
    (k.bins.filter (fun b => b.2.any (fun r => c.tags.contains { source := src, tag := r.tag }))).map (fun b => (k.gallery, b.1)))

/-- The destinations to which records of a commit's tags have been shipped. -/
def State.shippedTo (s : State) (c : Commit) : List CloseMsg :=
  (s.cats.flatMap Cataloguer.sent).filter (fun m => c.tags.contains { source := m.source, tag := m.tag })

/-- Ships what is left of a commit's tags and sends its close messages; unchanged while a bin cannot be shipped (R341). -/
def State.sendCloses (s : State) (c : Commit) : State × Commit :=
  let bins := s.openBins c
  if c.sent || c.needTag || bins.any (fun b => !s.mayShip b.2) then (s, c)
  else
    let s1 := bins.foldl (fun s b => s.shipBin b.1 b.2) s
    let msgs := s1.shippedTo c
    ({ s1 with
        closes := s1.closes ++ msgs.filter (fun m => m.dest < 256)
        cats := s1.cats.map (fun k => { k with sent := k.sent.filter (fun m => !msgs.contains m) }) },
     { c with sent := true, sentSince := s.clock, awaited := msgs })

/-- Every acknowledgement has arrived or timed out, and the block has its next tag or has stopped waiting for it. -/
def Commit.acked (c : Commit) : Bool := c.sent && c.awaited.isEmpty && !c.needTag && !c.wantTag

/-- Applies a function to every commit in progress. -/
def State.mapCommits (s : State) (f : Commit → Commit) : State :=
  { s with
    cores := s.cores.map (fun c => { c with block := { c.block with commit := c.block.commit.map f } })
    savedCommits := s.savedCommits.map (fun x => { x with commit := f x.commit })
    grids := s.grids.map (fun g => { g with commit := g.commit.map f }) }

/-- Every commit in progress. -/
def State.allCommits (s : State) : List Commit :=
  s.cores.filterMap (fun c => c.block.commit) ++ s.savedCommits.map SavedCommit.commit ++ s.grids.filterMap Grid.commit

/-- Writes the commit failure word of the block entry (R434). -/
def State.putCommitFailure (s : State) (core : Nat) (l : Launch) (pa : Nat) : State :=
  s.putArea core l 0 0xFFC20 0 (leBytes 8 (pa % 2 ^ 48 + 2 ^ 63))

/-- Whether a live warp waits at a COMMIT. -/
def Warp.atCommit (w : Warp) : Bool :=
  match w.life, w.outst with
  | .live, some (.commit ..) => true
  | _, _ => false

/-- The cycles since the issue of a COMMIT are a sample of its gallery (R427). -/
def State.sampleCommit (s : State) (c : Commit) : State :=
  match c.issued with
  | some (g, since) => s.sample g 2 since
  | none => s

/-- A block's commit completes (R262, R292): tags are freed, the status is delivered to a warp that still waits, and
discarded otherwise (R436). -/
def State.finishCommit (s : State) (core : Nat) (b : Block) (c : Commit) : State :=
  let s1 := ((s.setBlock core { b with commit := none }).freeTags c.tags (c.status.getLsbD 1)).sampleCommit c
  let s2 := match c.failPa with
    | some pa => s1.putCommitFailure core b.launch pa
    | none => s1
  match c.warp with
  | none => s2
  | some (n, sd) =>
    if ((b.warp n).map Warp.atCommit).getD false then s2.mapWarp core n (fun w => { w.ws sd c.status with outst := none }) else s2

/-- Whether the issuing warp's earlier events have been performed: the completion is a release (R262). -/
def State.commitReleased (s : State) (core : Nat) (b : Block) (c : Commit) : Bool :=
  match c.warp with
  | none => true
  | some (n, _) => ((b.warp n).map (fun w => w.life != .live || (w.quiet && !s.netPending core n w.seq))).getD true

/-- One block's commit goes on: its messages are sent once its records have left the log, and it completes when nothing
is awaited. -/
def State.settleCommit (s : State) (core : Nat) : State :=
  match s.block core with
  | none => s
  | some b =>
    match b.commit with
    | none => s
    | some c =>
      let r := if b.logHolds (s.sourceOf (galleryOf core)) c then (s, c) else s.sendCloses c
      let s1 := r.1.setBlock core { b with commit := some r.2 }
      if r.2.acked && (r.2.scope != 4 || r.2.released) && s1.commitReleased core b r.2 then s1.finishCommit core b r.2 else s1

/-- Whether a commit is an acknowledged COMMIT.grid that waits for the other blocks of its grid. -/
def Commit.atGrid (c : Commit) : Bool := c.scope == 4 && c.acked && !c.released

/-- COMMIT.grid: when every block of a grid has issued one, all are acknowledged and each block's earlier events are performed, they
complete together (R262, R263). -/
def State.releaseGrid (s : State) (g : Grid) : State :=
  let mine (l : Launch) : Bool := l.record == g.record && l.ctx == g.ctx
  let here := s.cores.filter (fun c => mine c.block.launch && (c.block.commit.map (fun k => k.atGrid && s.commitReleased c.num c.block k)).getD false)
  let saved := s.savedCommits.filter (fun x => x.record == g.record && x.ctx == g.ctx && !x.done && x.commit.atGrid)
  match here with
  | [] => s
  | h :: _ =>
    if here.length + saved.length != h.block.launch.nblocks.toNat then s
    else
      let go (c : Commit) : Commit := if c.atGrid then { c with released := true } else c
      { s with
        cores := s.cores.map (fun c => if mine c.block.launch then { c with block := { c.block with commit := c.block.commit.map go } } else c)
        savedCommits := s.savedCommits.map (fun x => if x.record == g.record && x.ctx == g.ctx then { x with commit := go x.commit } else x) }

/-- Sends the close messages of the k-th commit of a saved block, unless the frame holds records of its tags (R444). -/
def State.settleSavedCommit (s : State) (k : Nat) : State :=
  match s.savedCommits[k]? with
  | none => s
  | some x =>
    if x.logged then s
    else
      let r := s.sendCloses x.commit
      { r.1 with savedCommits := r.1.savedCommits.set k { x with commit := r.2 } }

/-- The commits of saved blocks go on too; a finished one keeps its status for the restore (R446), and its first failing address is
written at once (R434). -/
def State.settleSaved (s0 : State) : State :=
  let s := (List.range s0.savedCommits.length).foldl State.settleSavedCommit s0
  let ended (x : SavedCommit) : Bool := !x.done && x.commit.acked && (x.commit.scope != 4 || x.commit.released)
  let s1 := (s.savedCommits.filter ended).foldl (fun s x =>
    let u := (s.freeTags x.commit.tags (x.commit.status.getLsbD 1)).sampleCommit x.commit
    match x.commit.failPa with
    | some pa => u.putCommitFailure 0 x.launch pa
    | none => u) s
  { s1 with savedCommits := s1.savedCommits.map (fun x => if ended x then { x with done := true } else x) }

/-- Sends the close messages of the grids' implicit commits (R331). -/
def State.settleGridCommit (s : State) (k : Nat) : State :=
  match s.grids[k]? with
  | none => s
  | some g =>
    match g.commit with
    | none => s
    | some c =>
      let r := s.sendCloses c
      { r.1 with grids := r.1.grids.set k { g with commit := some r.2 } }

/-- Carries every commit as far as it goes. -/
def State.settleCommits (s : State) : State :=
  let s1 := (s.cores.map Core.num).foldl State.settleCommit s
  let s2 := (List.range s1.grids.length).foldl State.settleGridCommit s1
  let s3 := s2.grids.foldl State.releaseGrid s2
  ((s3.cores.map Core.num).foldl State.settleCommit s3).settleSaved

/-! ### DST and COMMIT -/

/-- Records a block's log holds, tentative ones included (R334). -/
def Block.logUse (b : Block) : Nat := b.log.length + (b.warps.map (fun w => w.tent.length)).sum

/-- The tentative record of a lane of a DST (R290, R335); a word of this device outside program DRAM is refused at its
home, so nothing is recorded (R355). -/
def dstRecord (f : FormE) (w : Warp) (a : LaneAcc) : Option TentRec :=
  let hi := if op64 f.opr.toNat then w.rv (f.d.toNat + 1) a.lane else 0
  let mk (bin pa : Nat) : TentRec :=
    { bin := bin, rcd := { word := BitVec.ofNat 46 (pa / 4), op := BitVec.ofNat 6 f.opr.toNat, tag := 0, lo := w.rv f.d.toNat a.lane, hi := hi } }
  match a.loc with
  | .mem _ pa => some (mk (channelOf pa) pa)
  | .remote h pa => some (mk (256 + h.toNat) (2 ^ 47 + 2 ^ 41 * h.toNat + pa))
  | _ => none

/-- A DST to a device without a route is refused (R335). -/
def State.dstRoute (s : State) (pa : Nat) : Option FaultInfo :=
  if physRegion pa == .aperture && BitVec.ofNat 6 (pa / 2 ^ 41) != s.deviceNo && !Config.routed (BitVec.ofNat 6 (pa / 2 ^ 41))
  then some (flt 0x09 0x08) else none

/-- DST: quota, checks, room in the log, a tag and no pending FENCE (R252); then every record of E is appended (R40, R290). The spaces
that it accepts are those of the other global accesses, which R290 does not name (log entry 66). -/
def execDst (f : FormE) (s : State) : Host.Outcome State Fault Refusal :=
  issue (.dst f) (fun t =>
    let l := t.blk.launch
    let n := t.effLanes.length
    if 4096 / l.nwarps < t.w.tent.length + n then .fault (flt 0x05 0x02)
    else
      let obj := objNum f.obj f.ext
      match t.dev.objLanes t.core l.ctx l.sys obj objSpaces .deferred false (4 * dstWords f.opr) (t.offsE f) t.dev.dstRoute with
      | .error e => .fault e
      | .ok (_, as) =>
        if 4096 < t.blk.logUse + n || t.blk.tag.isNone || t.w.fence.isSome then .wait
        else
          let t1 := t.touchLanes (some obj) as
          .ok (t1.setW { t1.w with tent := t1.w.tent ++ as.filterMap (dstRecord f t.w) })) s

/-- Whether an operation under way has deferred words still to read (R261). -/
def Op.readsDeferred (o : Op) : Bool :=
  match o.body with
  | .tile _ _ _ todo dfr => dfr && !todo.isEmpty
  | .fabric _ _ _ _ dfr => dfr
  | _ => o.lanes.any (fun x => x.1.isDeferred)

/-- Reads of deferred words that a COMMIT must wait for: loads, operations and jobs that have still to read deferred pages, and
jobs with pages that were not resident when they issued (R261). -/
def Block.deferredReads (b : Block) : Bool :=
  b.jobs.any (fun j => j.dfr || j.unknown) || b.warps.any (fun w => w.loads.any (fun ld => ld.dfr) || w.ops.any Op.readsDeferred)

/-- The commit of the warp in view begins: its region is confirmed, the block's tags are closed and a new one is taken
(R260, R291). -/
def View.beginCommit (t : View) (sd : Nat) (sco : BitVec 3) : View :=
  let t1 := t.confirmed
  let c : Commit :=
    { warp := some (t.w.num, sd), issued := some (galleryOf t.core, t.dev.clock), scope := sco, tags := [], needTag := true, wantTag := false, tagSince := 0, sent := false, sentSince := 0,
      awaited := [],
      status := 0, failPa := none, released := false }
  let had := t1.blk.tag.isSome
  let t2 : View := { t1 with blk := ({ t1.blk with commit := some c }).closeTags t1.dev.clock, w := { t1.w with outst := some (.commit sd t1.dev.clock) } }
  if !had then t2
  else
    let s := t2.close.obtainTag t2.core
    match s.viewOf t2.core t2.w.num with
    | some t3 => { t3 with cl := t2.cl }
    | none => t2

/-- COMMIT (R291): one at a time for a block; the region entry after it is passed at once, with the commit in progress. -/
def execCommit (f : FormH) (s : State) : Host.Outcome State Fault Refusal :=
  issue (.commit f) (fun t =>
    let sco := f.fn.extractLsb' 0 3
    if sco == 4 && !t.blk.launch.coop then .fault (flt 0x0D 0x03)
    else if t.blk.commit.isSome || t.blk.deferredReads || !t.mayEnter then .wait
    else (t.beginCommit f.sd sco).enterAfter) s

/-! ### Events -/

/-- CATALOGUER_TAKE: the cataloguer visits a core, when it is that core's turn among the eight of the gallery, takes up to 16
confirmed records and bins them (R335, R336, R337). -/
def execCataloguerTake (core : Nat) (s : State) : Host.Outcome State Fault Refusal :=
  let g := galleryOf core
  let full := ((s.cat g).bins.filter (fun b => 128 ≤ b.2.length && s.mayShip b.1)).map Prod.fst
  let s1 := full.foldl (fun s k => s.shipBin g k) s
  let c := s1.cat g
  if c.turn != core % 8 || c.blocked then .next s1
  else .next ((s1.setCat { c with turn := (c.turn + 1) % 8 }).takeRecords core 16)

/-- BIN_PARK: the k-th bin on its way reaches its conservator, in order for each source (R337). -/
def execBinPark (bin : Nat) (s : State) : Host.Outcome State Fault Refusal :=
  match s.travelling[bin]? with
  | none => s.same
  | some b =>
    if (s.travelling.take bin).any (fun x => x.channel == b.channel && x.bin.source == b.bin.source) ||
      4096 ≤ (s.parked.filter (fun x => x.channel == b.channel)).length
    then s.same
    else .next { s with travelling := s.travelling.eraseIdx bin, parked := s.parked ++ [b] }

/-- REMOTE_BIN_FORWARD: a bin of another device arrives; its records are forwarded to the conservators of their channels
(R335, R337). A record outside program DRAM is dropped (R355). -/
def execRemoteBinForward (bin : Src ShippedBin) (s : State) : Host.Outcome State Fault Refusal :=
  match bin with
  | .queued _ => s.same
  | .outside b =>
    if b.source.extractLsb' 6 6 == s.deviceNo then s.same
    else
      let rs := (b.recs.map (fun r => ({ r with word := BitVec.ofNat 46 (recPa r % 2 ^ 40 / 4) } : DefRec))).filter
        (fun r => physRegion (recPa r) == .dram && r.op.toNat < 20)
      let chans := addAll [] (rs.map (fun r => channelOf (recPa r)))
      .next { s with travelling := s.travelling ++ chans.map (fun c =>
        { channel := c, bin := { source := b.source, recs := rs.filter (fun r => channelOf (recPa r) == c) } }) }

/-- The (source, tag) pairs that one application at a conservator covers: those of the commit that awaits the close message. Which
messages of another device's cataloguers are of one commit the messages do not say: any two that stand at the conservator may be
(log entry 37). -/
def State.closeGroup (s : State) (m : CloseMsg) : List TagRef :=
  let own : TagRef := { source := m.source, tag := m.tag }
  match s.allCommits.find? (fun c => c.awaited.contains m) with
  | some c => c.tags
  | none =>
    let near := s.closes.filter (fun x => x.dest == m.dest && x.source != m.source && x.source.extractLsb' 6 6 == m.source.extractLsb' 6 6 &&
      (s.galleryOfSource m.source).isNone && Config.pick s.tick [43, x.source.toNat, x.tag.toNat] % 2 == 1)
    own :: near.map (fun x => { source := x.source, tag := x.tag })

/-- Records of a group parked at a channel, in park order, with their source. -/
def State.parkedOf (s : State) (ch : Nat) (group : List TagRef) : List (BitVec 12 × DefRec) :=
  (s.parked.filter (fun b => b.channel == ch)).flatMap (fun b =>
    (b.bin.recs.filter (fun r => group.contains { source := b.bin.source, tag := r.tag })).map (fun r => (b.bin.source, r)))

/-- Bins of a channel without the records of a group that lie in the unit `[pa, pa + n)`; an empty bin is freed (R337). -/
def dropRecords (bs : List ChannelBin) (ch : Nat) (group : List TagRef) (pa n : Nat) : List ChannelBin :=
  (bs.map (fun b =>
    if b.channel != ch then b
    else { b with bin := { b.bin with recs := b.bin.recs.filter (fun r =>
      !(group.contains { source := b.bin.source, tag := r.tag } && pa ≤ recPa r && recPa r < pa + n)) } })).filter (fun b => !b.bin.recs.isEmpty)

/-- The unit of a record: its aligned pair when a 64-bit operator of the group names it, else its word (R259). -/
def unitOf (rs : List (BitVec 12 × DefRec)) (pa : Nat) : Nat × Nat :=
  if rs.any (fun r => op64 r.2.op.toNat && recPa r.2 == pa / 8 * 8) then (pa / 8 * 8, 8) else (pa, 4)

/-- The (source, tag) pair of a parked record as one number: pairs are taken in ascending order (R338). -/
def pairKey (r : BitVec 12 × DefRec) : Nat := 4096 * r.1.toNat + r.2.tag.toNat

/-- The elements on which a measure is least. -/
def leastBy {α : Type} (f : α → Nat) (xs : List α) : List α :=
  match xs with
  | [] => []
  | x :: _ => let m := xs.foldl (fun n y => min n (f y)) (f x); xs.filter (fun y => f y == m)

/-- Applies a commit to one unit: the records are taken by (source, tag) and then by row, in ascending order of rows, and all the
commit's records of the unit are applied as one write event (R229, R259, R338, R341). A unit whose region or row is held waits
(R128, R460). -/
def State.applyOne (s : State) (ch : Nat) (group : List TagRef) (rs : List (BitVec 12 × DefRec)) : State :=
  let inRow := leastBy (fun r => rowOf (recPa r.2)) (leastBy pairKey rs)
  let pick := inRow.getD (Config.pick s.tick [42] % inRow.length) (0, { word := 0, op := 0, tag := 0, lo := 0, hi := 0 })
  let u := unitOf rs (recPa pick.2)
  let mine := rs.filter (fun r => u.1 ≤ recPa r.2 && recPa r.2 < u.1 + u.2)
  let s1 := { s with parked := dropRecords s.parked ch group u.1 u.2 }
  if s.rangeHeld u.1 u.2 then s
  else if s.badMem u.1 u.2 then
    s1.mapCommits (fun c =>
      if c.awaited.any (fun m => m.dest == ch && group.contains { source := m.source, tag := m.tag }) then
        { c with status := c.status ||| 1, failPa := some (c.failPa.getD u.1) }
      else c)
  else s1.applyWrite u.1 (leBytes u.2 (applyUnit s.tick u.1 u.2 (leNat (Cells.getMany s.mem u.1 u.2)) mine))

/-- CLOSE_T: a conservator that has a close message applies the records of its commit, one unit a step, and then
acknowledges (R341). A close of another device's cataloguer is handed to every channel that holds its records. -/
def execCloseT (msg : Src CloseMsg) (s : State) : Host.Outcome State Fault Refusal :=
  match msg with
  | .outside m =>
    if m.source.extractLsb' 6 6 == s.deviceNo || m.dest != 256 + s.deviceNo.toNat then s.same
    else
      let has (b : ChannelBin) : Bool := b.bin.source == m.source && b.bin.recs.any (fun r => r.tag == m.tag)
      let chans := ((s.parked ++ s.travelling).filter has).map ChannelBin.channel
      .next { s with closes := addAll s.closes ((addAll [] chans).map (fun c => { m with dest := c })) }
  | .queued k =>
    match s.closes[k]? with
    | none => s.same
    | some m =>
      let group := s.closeGroup m
      let coming := s.travelling.any (fun b => b.channel == m.dest && b.bin.recs.any (fun r => group.contains { source := b.bin.source, tag := r.tag }))
      let rs := s.parkedOf m.dest group
      if coming then s.same
      else if !rs.isEmpty then .next (s.applyOne m.dest group rs)
      else
        let done (x : CloseMsg) : Bool := x.dest == m.dest && group.contains { source := x.source, tag := x.tag }
        let acks := (s.closes.filter done).filter (fun x => (s.galleryOfSource x.source).isSome)
        .next { s with closes := s.closes.filter (fun x => !done x), acks := s.acks ++ acks }

/-- An acknowledgement leaves the awaited ones; a cataloguer's last is a sample of its monitors (R427). -/
def State.takeAck (s : State) (m : CloseMsg) : State :=
  let left (c : Commit) : List CloseMsg := c.awaited.filter (fun x => x != m)
  let s1 := s.mapCommits (fun c => { c with awaited := left c })
  match s.allCommits.find? (fun c => c.awaited.contains m), s.galleryOfSource m.source with
  | some c, some g => if (left c).any (fun x => x.source == m.source) then s1 else s1.sample g 3 c.sentSince
  | _, _ => s1

/-- COMMIT_ACK: an acknowledgement reaches its cataloguer; one that nobody awaits is discarded (R341, R351). -/
def execCommitAck (ack : Src CloseMsg) (s : State) : Host.Outcome State Fault Refusal :=
  match ack with
  | .queued k =>
    match s.acks[k]? with
    | none => s.same
    | some m => .next (({ s with acks := s.acks.eraseIdx k } : State).takeAck m)
  | .outside m => if m.dest < 256 then s.same else .next (s.takeAck m)

/-- A commit whose remote acknowledgements have not come within 2 ms: status bit [1] (R292, R341). -/
def Commit.remoteTimeout (s : State) (c : Commit) : Commit :=
  if s.passed c.sentSince (2000 * cyclesPerUs) && c.awaited.any (fun m => 256 ≤ m.dest) then { c with awaited := c.awaited.filter (fun m => m.dest < 256), status := c.status ||| 2 } else c

/-- COMMIT_REMOTE_TIMEOUT (R292). -/
def execCommitRemoteTimeout (party : CommitParty) (s : State) : Host.Outcome State Fault Refusal :=
  match party with
  | .block core =>
    match s.block core with
    | none => s.same
    | some b => .next (s.setBlock core { b with commit := b.commit.map (Commit.remoteTimeout s) })
  | .grid k => .next { s with grids := s.grids.modify k (fun g => { g with commit := g.commit.map (Commit.remoteTimeout s) }) }
  | .saved k => .next { s with savedCommits := s.savedCommits.modify k (fun x => { x with commit := x.commit.remoteTimeout s }) }

/-- TAG_WAIT_TIMEOUT: no tag has been free for 1 ms; the commit goes on with status bit [2] and the block holds none (R292). -/
def execTagWaitTimeout (core : Nat) (s : State) : Host.Outcome State Fault Refusal :=
  match s.block core with
  | none => s.same
  | some b =>
    .next (s.setBlock core { b with commit := b.commit.map (fun c => if c.wantTag && s.passed c.tagSince (1000 * cyclesPerUs) then { c with wantTag := false, status := c.status ||| 4 } else c) })

/-- TAG_HOLD_EXPIRY: a tag held for 100 ms after a remote timeout is free again (R292, R340). -/
def execTagHoldExpiry (gallery : Nat) (tag : BitVec 12) (s : State) : Host.Outcome State Fault Refusal :=
  let c := s.cat gallery
  .next (s.setCat { c with timedOut := c.timedOut.filter (fun t => t.1 != tag || !s.passed t.2 (100000 * cyclesPerUs)) })

/-- TAG_GRANT: a free tag goes to the block that has been without one longest; a COMMIT that waited for it closes it and
takes another (R291, R292). -/
def execTagGrant (gallery : Nat) (s : State) : Host.Outcome State Fault Refusal :=
  let c := s.cat gallery
  match c.waiting, s.freeTag gallery with
  | core :: rest, some t =>
    let s1 := (s.setCat { c with waiting := rest }).holdTag gallery t
    match s1.block core with
    | none => .next s1
    | some b =>
      let b1 := b.receiveTag { source := s.sourceOf gallery, tag := t }
      .next ((s1.setBlock core b1).closeDue core)
  | _, _ => s.same

end Sys2Proof.Machine
end

