-- ==== Sys2Proof/Machine/Counters.lean ====
section
/-!
DEFINITION. Counters: barrier objects, enrolment, step stamps, performance counters and histogram monitors
(spec 17 R410 to R429; spec 10 R258).
-/
namespace Sys2Proof.Machine

/-! ### Addressing and checks (R415) -/

/-- Steps 1 to 3 of R415: alignment, bounds or translation, permission. A .g page that is deferred, compressed, of the
host or of the aperture is refused. -/
def View.counterLoc (t : View) (g : Bool) (a : Word64) (size : Nat) : Except FaultInfo Loc :=
  if g then do
    let _ ← require (a.toNat % size == 0) ((flt 0x0A 0x00).at a)
    let l ← t.dev.translate t.blk.launch.ctx t.blk.launch.sys .rmw a [700]
    let _ ← require (!pteD l.pte && !pteCP l.pte && physRegion l.pa == .dram) { (flt 0x09 0x00).at a with kind := 1 }
    .ok (t.dev.placeAt l)
  else do
    let off := a.toNat % 2 ^ 32
    let _ ← require (off % size == 0) (flt 0x0A 0x00)
    let _ ← require (off + size ≤ t.blk.scratchSize) (flt 0x07 0x01)
    .ok (.bank t.core off)

/-- Step 4 of R415. -/
def BarObj.misuse (o : BarObj) (g coop : Bool) : Option FaultInfo :=
  if o.exp = 0 then some (flt 0x0D 0x00)
  else if o.res != 0 then some (flt 0x0D 0x01)
  else if (if g then o.sco != 3 && o.sco != 4 else o.sco != 2) then some (flt 0x0D 0x02)
  else if o.sco == 4 && !coop then some (flt 0x0D 0x03)
  else none

/-- A counter word or object at s(sa) is located; a bank under a mode change, a pending fence and the warp's own accesses of it are
awaited (R128, R215, R241, R252). -/
def View.atCounter (t : View) (g : Bool) (a : Word64) (size : Nat) (k : View → Loc → List Byte → Res) : Res :=
  if !g && t.blk.offBusy (a.toNat % 2 ^ 32 : Nat) then .wait
  else
    match t.counterLoc g a size with
    | .error f => .fault f
    | .ok loc =>
      if t.placeBusy loc size then .wait
      else
        match t.dev.readLoc t.core t.w.num loc size with
        | .error f => .fault (if g then f.at a else f)
        | .ok bs => k (if g then { t with dev := (t.dev.touch (some t.core) t.blk.launch.ctx a [700]).visit false loc size } else t) loc bs

/-- A barrier object that passes the misuse checks. -/
def View.atBarrier (t : View) (g : Bool) (a : Word64) (k : View → Loc → BarObj → Res) : Res :=
  t.atCounter g a 16 (fun t1 loc bs =>
    match (BarObj.ofBytes bs).misuse g t.blk.launch.coop with
    | some f => .fault f
    | none => k t1 loc (.ofBytes bs))

/-- One RMW of the warp in view on a barrier object, with its phase completion (R410, R412). -/
def View.putBar (t : View) (loc : Loc) (o : BarObj) : View :=
  t.through (fun s => s.rmwBar t.core t.w.num t.blk.launch.ctx t.blk.launch.sys loc (fun _ => o))

/-- Adds a held counter operation; a warp holds at most eight (R424). -/
def View.holdOp (t : View) (h : HeldOp) : Res :=
  if 8 ≤ t.w.held.length then .fault (flt 0x05 0x04) else .ok (t.setW { t.w with held := t.w.held ++ [h] })

/-! ### Enrolment (R422) -/

/-- Whether a slot names an object, by its space and its address as the program gives it. -/
def Enrol.names (e : Enrol) (g : Bool) (a : Addr) : Bool := e.g == g && e.addr == a

/-- The address a slot holds: the virtual address, or the scratchpad offset. -/
def slotAddr (g : Bool) (a : Word64) : Addr := if g then a else BitVec.ofNat 64 (a.toNat % 2 ^ 32)

/-- Whether the warp is enrolled at an object. -/
def Warp.enrolled (w : Warp) (g : Bool) (a : Addr) : Bool := w.enrol.any (fun e => (e.map (fun x => x.names g a)).getD false)

/-- Counts an arrival of `n` at an object in phase `ph` in the warp's lowest slot for it (R422). -/
def countArrival (es : List (Option Enrol)) (g : Bool) (a : Addr) (ph : BitVec 4) (n : Nat) : List (Option Enrol) :=
  match es with
  | [] => []
  | some e :: r =>
    if e.names g a then some { e with a := min 65535 ((if e.phase == ph then e.a else 0) + n), phase := ph } :: r
    else some e :: countArrival r g a ph n
  | none :: r => none :: countArrival r g a ph n

/-- The slot of an enrolment with `c` arrivals; one that names the object in its current phase keeps its count (R422). -/
def newEnrol (old : Option Enrol) (g : Bool) (a : Addr) (c : Nat) (ph : BitVec 4) : Enrol :=
  match old with
  | some e =>
    if e.names g a && e.phase == ph then { e with c := c } else { g := g, addr := a, c := c, a := 0, phase := ph }
  | none => { g := g, addr := a, c := c, a := 0, phase := ph }

/-! ### Barrier instructions -/

/-- BARINIT: every field is set (R417, R418). Of the misuse checks of R415 that of a reserved field is made on the bytes that lie there,
that of the scope on the scope to be set, and of several that fail the first in the order below is reported (log entry 74). -/
def execBarinit (f : FormH) (s : State) : Host.Outcome State Fault Refusal :=
  issue (.barinit f) (fun t =>
    let g := f.fn.getLsbD 0
    let sco := f.fn.extractLsb' 1 3
    let nt := f.fn.getLsbD 4
    let n := (t.w.rs f.sb).toNat
    let rcd := if nt then (t.w.rs f.sd).toNat else 0
    let a := t.w.rs f.sa
    if (a.toNat % 2 ^ 32) % 16 == 0 && rcd % 64 != 0 then .fault (flt 0x0A 0x00)
    else t.atCounter g a 16 (fun t1 loc bs =>
      if (BarObj.ofBytes bs).res != 0 then .fault (flt 0x0D 0x01)
      else if g && sco == 2 then .fault (flt 0x0D 0x02)
      else if n = 0 || 65535 < n then .fault (flt 0x0D 0x04)
      else if 2 ^ 54 ≤ rcd then .fault (flt 0x0D 0x06)
      else if sco == 4 && !t.blk.launch.coop then .fault (flt 0x0D 0x03)
      else
        let o : BarObj :=
          { exp := n, pend := n, bal := 0, ph := 0, sco := sco, nt := nt, res := 0, nrec := BitVec.ofNat 48 (rcd / 64) }
        .ok (t1.through (fun s => s.writeLoc t.core t.w.num loc o.bytes)))) s

/-- BARENROL: fills or empties a slot (R417, R422). -/
def execBarenrol (f : FormH) (s : State) : Host.Outcome State Fault Refusal :=
  issue (.barenrol f) (fun t =>
    let g := f.fn.getLsbD 0
    let k := (f.fn.extractLsb' 1 2).toNat
    if f.fn.getLsbD 3 then .ok (t.setW { t.w with enrol := t.w.enrol.set k none })
    else t.atBarrier g (t.w.rs f.sa) (fun t1 _ o =>
      let c := (t.w.rs f.sb).toNat % 65536
      if c = 0 then .fault (flt 0x0D 0x04)
      else .ok (t1.setW { t1.w with enrol := t1.w.enrol.set k (some (newEnrol (t1.w.enrol.getD k none) g (slotAddr g (t.w.rs f.sa)) c o.ph)) }))) s

/-- BARARRIVE: one RMW, then a region entry (R419, R258). -/
def execBararrive (f : FormH) (s : State) : Host.Outcome State Fault Refusal :=
  issue (.bararrive f) (fun t =>
    let g := f.fn.getLsbD 0
    let n := (f.fn.extractLsb' 3 6).toNat + 1
    let a := slotAddr g (t.w.rs f.sa)
    t.atBarrier g (t.w.rs f.sa) (fun t1 loc o =>
      if !t.mayEnter || ((f.fn.getLsbD 1 || t.w.enrolled g a) && !t.drained) then .wait
      else if o.pend < n then .fault (flt 0x0C 0x00)
      else
        let bal := if f.fn.getLsbD 2 then o.bal + (t.w.rs f.sb).setWidth 32 else o.bal
        let t2 := t1.putBar loc { o with pend := o.pend - n, bal := bal }
        let w3 : Warp := { t2.w with enrol := countArrival t2.w.enrol g a o.ph n }
        (t2.setW (w3.ws f.sd (o.ph.setWidth 64))).enterAfter)) s

/-- BAREXPECT: held until the region is confirmed; the token is read at once (R420). -/
def execBarexpect (f : FormH) (s : State) : Host.Outcome State Fault Refusal :=
  issue (.barexpect f) (fun t =>
    let g := f.fn.getLsbD 0
    t.atBarrier g (t.w.rs f.sa) (fun t1 loc o =>
      (t1.setW (t1.w.ws f.sd (o.ph.setWidth 64))).holdOp (.expect g loc ((t.w.rs f.sb).setWidth 32)))) s

/-- The result of a bounded wait in p(pd), in the lanes of E (R421). -/
def Warp.barResult (w : Warp) (bnd : Bool) (pd : Nat) (eff : LaneMask) (seen : Bool) : Warp :=
  if bnd then w.wp pd eff (if seen then 0xFFFFFFFF else 0) else w

/-- BARWAIT: the object is tested at once; otherwise the warp waits for its phase to change (R414, R421). -/
def execBarwait (f : FormH) (s : State) : Host.Outcome State Fault Refusal :=
  issue (.barwait f) (fun t =>
    let g := f.fn.getLsbD 0
    let bnd := f.fn.getLsbD 1
    let pd := (f.fn.extractLsb' 2 3).toNat
    let tok := (t.w.rs f.sb).extractLsb' 0 4
    t.atBarrier g (t.w.rs f.sa) (fun t1 _ o =>
      if o.ph != tok then .ok (t1.setW (t1.w.barResult bnd pd t.eff true))
      else if bnd && t.w.rs f.sd == 0 then .ok (t1.setW (t1.w.barResult bnd pd t.eff false))
      else .ok (t1.setW { t1.w with outst := some (.barwait t.pc t.eff g (t.w.rs f.sa) tok bnd pd t.dev.clock (t.w.rs f.sd)) }))) s

/-- A test of the object a warp waits at: its phase has changed, or not, or a fault is met. Each test is an access, translated anew
(R386); it waits for a change of the bank's or the region's mode (R128, R215). -/
def View.barTest (t : View) (g : Bool) (a : Word64) (tok : BitVec 4) : Except FaultInfo Bool := do
  let loc ← t.counterLoc g a 16
  let _ ← require (!t.dev.locHeld loc 16 && (g || !t.blk.offBusy (a.toNat % 2 ^ 32 : Nat))) busy
  let bs ← t.dev.readLoc t.core t.w.num loc 16
  .ok ((BarObj.ofBytes bs).ph != tok)

/-- The translation of a test is cached (R385). -/
def View.barTouch (t : View) (g : Bool) (a : Word64) : View :=
  if g then { t with dev := t.dev.touch (some t.core) t.blk.launch.ctx a [700] } else t

/-- A BARWAIT ends with its result. -/
def View.endBarwait (t : View) (bnd : Bool) (pd : Nat) (eff : LaneMask) (seen : Bool) : State :=
  (t.setW (({ t.w with outst := none } : Warp).barResult bnd pd eff seen)).close

/-- What a test of the object gives a warp that waits there: its end, or a fault at the BARWAIT; while the test must wait, nothing. -/
def View.barTested (t : View) (pc : Addr) (r : Except FaultInfo Bool) (k : Bool → State) : Host.Outcome State Fault Refusal :=
  match r with
  | .error f => if f.cls == 0 then t.dev.same else .next (t.raise { f with addr := some pc })
  | .ok seen => .next (k seen)

/-- BARWAIT_OBSERVE: the warp sees that the phase has changed (R421). -/
def execBarwaitObserve (core warp : Nat) (s : State) : Host.Outcome State Fault Refusal :=
  match s.viewOf core warp with
  | none => s.same
  | some t =>
    match t.w.outst with
    | some (.barwait pc eff g a tok bnd pd _ _) =>
      t.barTested pc (t.barTest g a tok) (fun seen => if seen then (t.barTouch g a).endBarwait bnd pd eff true else (t.barTouch g a).close)
    | _ => s.same

/-- BARWAIT_BOUND_EXPIRY: the bound has passed; the last test decides (R421, R429). -/
def execBarwaitBoundExpiry (core warp : Nat) (s : State) : Host.Outcome State Fault Refusal :=
  match s.viewOf core warp with
  | none => s.same
  | some t =>
    match t.w.outst with
    | some (.barwait pc eff g a tok bnd pd since bound) =>
      if !bnd || !s.passed since bound.toNat then s.same
      else t.barTested pc (t.barTest g a tok) (fun seen => (t.barTouch g a).endBarwait bnd pd eff seen)
    | _ => s.same

/-! ### Step stamps (R423, R425) -/

/-- STAMPTRY: an acquire read of the stamp (R425). -/
def execStamptry (f : FormH) (s : State) : Host.Outcome State Fault Refusal :=
  issue (.stamptry f) (fun t =>
    t.atCounter true (t.w.rs f.sa) 8 (fun t1 _ bs =>
      let step := leNat bs % 2 ^ 48
      .ok (t1.setW (t1.w.wp (f.fn.extractLsb' 0 3).toNat t.eff
        (if step < (t.w.rs f.sb).toNat % 2 ^ 48 then 0xFFFFFFFF else 0))))) s

/-- STAMPSET: held until the region is confirmed (R425). -/
def execStampset (f : FormH) (s : State) : Host.Outcome State Fault Refusal :=
  issue (.stampset f) (fun t =>
    match t.counterLoc true (t.w.rs f.sa) 8 with
    | .error e => .fault e
    | .ok loc =>
      let t1 : View := { t with dev := t.dev.touch (some t.core) t.blk.launch.ctx (t.w.rs f.sa) [700] }
      t1.holdOp (.stamp loc ((t.w.rs f.sb).setWidth 48))) s

/-! ### Performance counters and monitors (R426 to R428) -/

/-- Counter `n` of the warp or its block (R426). -/
def View.counter (t : View) (n : Nat) : Word64 :=
  if n < 6 then Cells.get t.w.counters n else if n < 9 then Cells.get t.blk.counters n else 0

/-- Whether values do not decrease. -/
def rising : List Nat → Bool
  | a :: b :: r => a ≤ b && rising (b :: r)
  | _ => true

/-- The configuration that a record's 64 bytes hold, when it is well formed (R427, R428). -/
def Monitor.ofRecord (bs : List Byte) : Option Monitor :=
  let b (k : Nat) : Nat := bytesNat bs k 1
  let edges := (List.range 15).map (fun i => bytesNat bs (4 + 4 * i) 4)
  if b 0 < 8 && b 1 < 2 && bytesNat bs 2 2 = 0 && rising edges then
    some { src := BitVec.ofNat 4 (b 0), en := b 1 == 1, edges := edges.map (BitVec.ofNat 32), words := monitorWords, last := 0 }
  else none

/-- PERF .ctr (R428). -/
def execPerfCtr (f : FormH) (s : State) : Host.Outcome State Fault Refusal :=
  issue (.perfCtr f) (fun t => .ok (t.setW (t.w.ws f.sd (t.counter (t.w.rs f.sa).toNat)))) s

/-- The monitor number of PERF. -/
def monOf (f : FormH) : Nat := (f.fn.extractLsb' 3 2).toNat

/-- PERF .mcfg: alignment, translation, then privilege (R415, R428). -/
def execPerfMcfg (f : FormH) (s : State) : Host.Outcome State Fault Refusal :=
  issue (.perfMcfg f) (fun t =>
    let a := t.w.rs f.sa
    if a.toNat % 64 != 0 then .fault ((flt 0x0A 0x00).at a)
    else
      match t.dev.walk t.blk.launch.ctx a [600] with
      | .error e => .fault e
      | .ok _ =>
        if !t.blk.launch.sys then .fault (flt 0x09 0x0A)
        else (t.readVa a 64).then (fun t1 bs =>
          match Monitor.ofRecord bs with
          | none => .fault (flt 0x02 0x0B)
          | some m => .ok { t1 with dev := t1.dev.setMonitor (galleryOf t.core) (monOf f) { m with last := t.dev.clock } })) s

/-- PERF .mrd (R428). -/
def execPerfMrd (f : FormH) (s : State) : Host.Outcome State Fault Refusal :=
  issue (.perfMrd f) (fun t =>
    if !t.blk.launch.sys then .fault (flt 0x09 0x0A)
    else .ok (t.setW (t.w.ws f.sd ((t.dev.monitor (galleryOf t.core) (monOf f)).words.getD (t.w.rs f.sb).toNat 0)))) s

/-- PERF .mclr (R428). -/
def execPerfMclr (f : FormH) (s : State) : Host.Outcome State Fault Refusal :=
  issue (.perfMclr f) (fun t =>
    if !t.blk.launch.sys then .fault (flt 0x09 0x0A)
    else
      let g := galleryOf t.core
      .ok { t with dev := t.dev.setMonitor g (monOf f) { t.dev.monitor g (monOf f) with words := monitorWords } }) s

/-- Records a cataloguer holds in its bins. -/
def Cataloguer.records (c : Cataloguer) : Nat := (c.bins.map (fun b => b.2.length)).sum

/-- MONITOR_SAMPLE: an enabled monitor of a periodic source takes its sample, every 1,024 cycles (R427): the records that the
cataloguer holds, or a current or temperature, whose value is free (log entry 3). -/
def execMonitorSample (gallery monitor value : Nat) (s : State) : Host.Outcome State Fault Refusal :=
  let m := s.monitor gallery monitor
  if !m.en || m.src.toNat < 5 || !s.passed m.last 1024 || 40 ≤ gallery || 4 ≤ monitor then s.same
  else .next (s.setMonitor gallery monitor
    { m.sample (if m.src == 5 then (s.cat gallery).records else value) with last := m.last + 1024 })

end Sys2Proof.Machine
end

