-- ==== Sys2Proof/Machine/Queues.lean ====
section
/-!
DEFINITION. The queue instructions (spec 13 R322 to R325, R344 to R350) and the request to stop (spec 18 R440).
-/
namespace Sys2Proof.Machine

/-! ### Records (R322, R323) -/

/-- A launch or continuation record; `resv` is that its reserved fields are zero. -/
structure Rec where
  code : Addr
  frame : Word64
  jc : Nat
  nb : Nat
  shape : Word32
  tiles : Nat
  ctx : Nat
  prio : BitVec 3
  coop : Bool
  sys : Bool
  cont : Bool
  succ : Addr
  desc : Addr
  rule : Addr
  dcnt : Nat
  stko : Nat
  resv : Bool
  deriving DecidableEq, Repr

/-- The record that bytes hold (R322). -/
def Rec.ofBytes (bs : List Byte) : Rec :=
  let q (k : Nat) : Nat := bytesNat bs k 8
  let b (k : Nat) : Nat := bytesNat bs k 1
  let low (x : Nat) : Addr := BitVec.ofNat 64 (x % 2 ^ 55)
  { code := low (q 0), frame := BitVec.ofNat 64 (q 8), jc := bytesNat bs 16 4, nb := bytesNat bs 20 4,
    shape := BitVec.ofNat 32 (bytesNat bs 24 4), tiles := b 28 % 64, ctx := b 29 % 64, prio := BitVec.ofNat 3 (b 30),
    coop := (b 30).testBit 3, sys := (b 30).testBit 4, cont := (b 30).testBit 5, succ := low (q 32), desc := low (q 40),
    rule := low (q 48), dcnt := bytesNat bs 56 2, stko := bytesNat bs 58 2 % 2 ^ 12,
    resv := q 0 < 2 ^ 55 && bytesNat bs 24 4 < 2 ^ 30 && b 28 < 64 && b 29 < 64 && b 30 < 64 && b 31 == 0 &&
      q 32 < 2 ^ 55 && q 40 < 2 ^ 55 && q 48 < 2 ^ 55 && bytesNat bs 58 2 < 2 ^ 12 }

/-- Scratchpad quads, FIFO banks and gang size of a shape word (R322). -/
def recQ (x : Word32) : Nat := (x.extractLsb' 10 4).toNat
def recF (x : Word32) : Nat := (x.extractLsb' 14 6).toNat
def recG (x : Word32) : Nat := 2 ^ (x.extractLsb' 20 2).toNat

/-- R323. -/
def Rec.malformed (r : Rec) : Bool :=
  !r.resv || r.code.toNat % 4 != 0 || 12 < recQ r.shape || 48 < 4 * recQ r.shape + recF r.shape || 32 < r.tiles ||
    (r.dcnt == 0 && !r.cont) || (r.cont && r.nb != 1) || r.rule.toNat % 64 != 0

/-- Galleries in service (R43, R460). -/
def State.galleries (s : State) : Nat := ((List.range 40).filter (fun g => !s.service.out.contains g)).length

/-- Whether the blocks of a cooperative grid can all be resident together (R43). -/
def State.residable (s : State) (r : Rec) : Bool :=
  let g := recG r.shape
  r.nb ≤ 8 * s.galleries && (r.nb + g - 1) / g ≤ s.galleries * (8 / g)

/-- The state code of the record at a place. -/
def State.codeAt (s : State) (d : DevPlace) : Nat := s.readAt d 60 1

/-- A record that LAUNCH, SPAWN and QAPP refuse as busy (R324, R345). -/
def busyCode (c : Nat) : Bool := c == 1 || c == 2 || c == 3

/-- What arming a record gives: the device and the resulting code, or a wait since the given time for a page of its queue, until
which the record stays as it was (R327, R345). -/
inductive Armed where
  | done (s : State) (code : Nat)
  | waits (s : State) (since : Word64)

/-- Arming by an enqueue, which leaves code 0x02 or 0x14 in the record (R327, R345). -/
def Armed.ofQueue (d : DevPlace) : DevRes → Armed
  | .done s => .done s (s.codeAt d)
  | .refused s => .done s (s.codeAt d)
  | .waits s since => .waits s since

/-- An accepted cooperative record that waits for its join counter is remembered (R43, R460). -/
def State.noteCoop (s : State) (r : Rec) (pa : Nat) : State :=
  if r.coop && !r.cont then { s with armedCoops := addAll (s.armedCoops.filter (fun a => s.homeBytes (a + 60) 1 == [1])) [pa] } else s

/-- Arms the record at `rcd`, which lies at `d`, and gives its resulting code (R345). -/
def State.arm (s : State) (sys : Bool) (permitted : Rec → Bool) (rcd : Addr) (d : DevPlace) : Armed :=
  let r := Rec.ofBytes (s.readVia d.via d.pa 64)
  if busyCode (s.codeAt d) then .done s 0x13
  else if r.malformed then .done (s.setCode d 0x10) 0x10
  else if !permitted r then .done (s.setCode d 0x12) 0x12
  else if r.coop && !s.residable r then .done (s.setCode d 0x11) 0x11
  else if r.jc = 0 then .ofQueue d (s.tryQueue rcd d sys r.ctx r.prio.toNat id)
  else .done ((s.setCode d 0x01).noteCoop r d.pa) 0x01

/-- The record that QAPP names is armed as LAUNCH arms it (R452). -/
def State.hostArm (s : State) (ctx : Nat) (rcd : Addr) : Armed :=
  if !(s.ctxDesc ctx [100]).ok then .done s 0x12
  else
    match s.devTranslate ctx true .rmw rcd with
    | .error f => if f.cls == 0 then .waits s (s.clock - BitVec.ofNat 64 retryCycles) else .done s 0x10
    | .ok d => if rcd.toNat % 64 != 0 then .done s 0x10 else (s.devTouch ctx rcd).arm true (fun r => r.ctx == ctx) rcd d

/-- One attempt of a QAPP write: the code goes to QSTAT, whose busy bit stays set while the enqueue waits for a page (R327, R452). -/
def State.tryQapp (s : State) (ctx : Nat) (rcd : Addr) : DevRes :=
  match s.hostArm ctx rcd with
  | .done s1 code => .done { s1 with host := { s1.host with qstat := BitVec.ofNat 9 code } }
  | .waits s1 since => .waits { s1 with host := { s1.host with qstat := s1.host.qstat ||| 0x100 } } since

/-! ### Shared operations of the instructions (R344) -/

/-- The record at an address: alignment, then the checks of a global read and write. A record in another device is an
access that its home answers for; it is met as class 0x0E detail 0x03 (log entry 5). -/
def View.recordAt (t : View) (a : Word64) : Except FaultInfo DevPlace := do
  let _ ← require (a.toNat % 64 == 0) ((flt 0x0A 0x00).at a)
  let l ← t.dev.translate t.blk.launch.ctx t.blk.launch.sys .rmw a [700]
  match t.dev.placeAt l with
  | .mem v pa => if t.dev.badMem pa 64 then .error ((flt 0x0E (if v.loop then 0x03 else 0x01)).at a) else .ok { via := v, pa := pa }
  | _ => .error ((flt 0x0E 0x03).at a)

/-- The place of a record as an access of a warp. -/
def DevPlace.loc (d : DevPlace) : Loc := .mem d.via d.pa

/-- An operation on the record at s(sa): its checks, then the release at device scope of the warp's earlier events (R247, R344). -/
def View.atRecord (t : View) (f : FormH) (k : View → DevPlace → Res) : Res :=
  let a := t.w.rs f.sa
  match t.recordAt a with
  | .error e => .fault e
  | .ok d =>
    if !t.mayEnter || !t.drained || t.placeBusy d.loc 64 then .wait
    else k { t with dev := (t.dev.touch (some t.core) t.blk.launch.ctx a [700]).visit false d.loc 64 } d

/-- A change of the device that gives a code for s(sd), then the region entry after the instruction. While an enqueue waits for a
page, which is tried again every 100 µs, so does the instruction, with no effect (R327, R343, R505). -/
def View.codeEnter (t : View) (sd : Nat) (f : State → Armed) : Res :=
  let early := match t.w.wait with
    | some (.queue since) => !t.dev.passed since retryCycles
    | _ => false
  if early then .wait
  else
    match f t.close with
    | .done s code =>
      let t1 := t.through (fun _ => s)
      (t1.setW (t1.w.ws sd (BitVec.ofNat 64 code))).enterAfter
    | .waits s since =>
      let t1 := t.through (fun _ => s)
      .hold (t1.setW { t1.w with wait := some (.queue since) })

/-! ### LAUNCH, SPAWN, JOIN, QDEPTH -/

/-- LAUNCH (R345). -/
def execLaunch (f : FormH) (s : State) : Host.Outcome State Fault Refusal :=
  issue (.launch f) (fun t => t.atRecord f (fun t1 d =>
    let l := t.blk.launch
    let permitted (r : Rec) : Bool := l.sys || (r.ctx == l.ctx && !r.sys)
    t1.codeEnter f.sd (fun s => s.arm l.sys permitted (t.w.rs f.sa) d))) s

/-- The 64 bytes of the record that SPAWN writes, apart from its state code (R346). -/
def spawnBytes (l : Launch) (rcd code : Word64) (jc : Nat) : List Byte :=
  leBytes 8 (code.toNat % 2 ^ 55) ++ leBytes 8 (rcd.toNat + 64) ++ leBytes 4 jc ++ leBytes 4 1 ++
    leBytes 4 (l.shape &&& 0xFFCFFFFF).toNat ++ leBytes 1 l.tiles ++ leBytes 1 l.ctx ++ leBytes 1 l.recPrio.toNat ++ [0] ++
    leBytes 8 0 ++ leBytes 8 l.descBase.toNat ++ leBytes 8 l.rule.toNat ++ leBytes 2 l.dcnt ++ leBytes 2 l.stko ++ leBytes 4 0

/-- Writes a record at `d` and arms it with join counter `jc`, in one step, unless the record is busy; while its enqueue waits, the
record is as it was (R346, R350, R505). -/
def State.writeArmed (s : State) (sys : Bool) (rcd : Addr) (d : DevPlace) (jc : Nat) (bytes : List Byte) : Armed :=
  if busyCode (s.codeAt d) then .done s 0x13
  else if jc = 0 then
    .ofQueue d (s.tryQueue rcd d sys (Rec.ofBytes bytes).ctx (Rec.ofBytes bytes).prio.toNat (fun u => u.writeAt d 0 bytes))
  else .done ((s.writeAt d 0 bytes).setCode d 0x01) 0x01

/-- SPAWN (R346). -/
def execSpawn (f : FormH) (s : State) : Host.Outcome State Fault Refusal :=
  issue (.spawn f) (fun t =>
    let code := t.w.rs f.sb
    if (t.w.rs f.sa).toNat % 64 == 0 && code.toNat % 4 != 0 then .fault ((flt 0x0A 0x00).at code)
    else t.atRecord f (fun t1 d =>
      let l := t.blk.launch
      let jc := immNat f.fn f.imm
      t1.codeEnter f.sd (fun s => s.writeArmed l.sys (t.w.rs f.sa) d jc (spawnBytes l (t.w.rs f.sa) code jc)))) s

/-- JOIN: s(sd) receives the join counter as the decrement left it (R325, R347). -/
def execJoin (f : FormH) (s : State) : Host.Outcome State Fault Refusal :=
  issue (.join f) (fun t => t.atRecord f (fun t1 d =>
    let l := t.blk.launch
    t1.codeEnter f.sd (fun s =>
      let s1 := s.joinAt l.ctx l.sys (t.w.rs f.sa) d (immNat f.fn f.imm)
      .done s1 (s1.readAt d 16 4)))) s

/-- QDEPTH (R349). -/
def execQdepth (f : FormH) (s : State) : Host.Outcome State Fault Refusal :=
  issue (.qdepth f) (fun t =>
    let q := if f.fn.getLsbD 0 then 8 else (t.w.rs f.sa).toNat % 8
    let va := t.dev.qcbVa t.blk.launch.ctx q + 16
    if va.toNat % 8 != 0 then .fault ((flt 0x0A 0x00).at va)
    else (t.readVa va 8).then (fun t1 bs =>
      let d := (bytesNat bs 4 4 + 2 ^ 32 - bytesNat bs 0 4) % 2 ^ 32
      .ok (t1.setW (t1.w.ws f.sd (BitVec.ofNat 64 d))))) s

/-! ### EXIT (R348) -/

/-- The last lane of the warp has exited: its region is confirmed, its handles are freed, and its slots are discarded; a
job fault that can no longer be raised goes to the block entry (R286, R434). -/
def View.exitWarp (t : View) : View :=
  let t1 := t.confirmed
  let n := t.w.num
  let w2 : Warp := { t1.w with
    life := .exited, ring := [], depth := 0, hw := [], clause := none, outst := none, waiting := none, wait := none, plan := [], ahead := [], enrol := List.replicate 4 none,
    jobFault := none }
  let b2 := ((t1.blk.freeHandles n false).leaveQuad n).leavePipe n
  let t2 : View := { t1 with blk := b2, w := w2 }
  let t3 := t2.bsync
  match t1.w.jobFault with
  | none => t3
  | some g => t3.through (fun s => s.putJobFault t.core t.blk.launch n g)

/-- EXIT: the lanes of E end; the others go on at the next header, and those that are left may all be held at BSYNCs (R155, R348).
The last lane's EXIT follows what the warp has under way, whose faults are the warp's. -/
def execExit (f : FormH) (s : State) : Host.Outcome State Fault Refusal :=
  issue (.exit f) (fun t =>
    let rest : Split := { pc := t.nextHeader, mask := t.w.runMask &&& ~~~t.eff, st := .ready }
    let ring := replaceRunning t.w.ring [rest]
    if ring.isEmpty then (if !t.mayEnter || !t.w.loads.isEmpty || !t.w.ops.isEmpty then .wait else .ok (t.leave.exitWarp))
    else Res.of (t.putRing ring) (fun t1 => Res.of t1.leave.settle (fun t2 => .ok t2.bsync))) s

/-! ### Stopping (R47, R350, R440) -/

/-- Blocks that are stopped and saved together: those of a gang, or of a cooperative grid (R440). -/
def Launch.sameSet (a b : Launch) : Bool := a.record == b.record && a.ctx == b.ctx && (a.coop || a.gang == b.gang)

/-- A warp is asked to stop. One that has issued nothing or waits at COMMIT stands at a resume point and stops at once (R351, R440); one
that waits for a retry stops when the 10 µs are over (R435, R501); one that sleeps wakes (R160). -/
def Warp.askStop (now : Word64) (w : Warp) : Warp :=
  if w.life != .live || w.stop != .no then w
  else
    let atEntry := (!w.started && w.dead.isNone) ||
      (match w.outst with
       | some (.commit ..) => true
       | _ => false)
    let outst := match w.outst with
      | some (.sleep ..) => none
      | o => o
    { w with stop := if atEntry then .stopped else .asked, askedAt := now, outst := outst }

/-- A block is asked to stop; a PARK prevails over a request of the host, and a second PARK has no effect (R350, R351). -/
def Block.askStop (b : Block) (now : Word64) (r : StopReq) : Block :=
  let r1 : StopReq := match b.stopReq, r with
    | some (.park a j), _ => .park a j
    | _, x => x
  { b with stopReq := some r1, warps := b.warps.map (Warp.askStop now) }

/-- Starts the stop procedure for the blocks of a set; `lead` is the parking block's core. -/
def State.parkSet (s : State) (core : Nat) (rcd : Addr) (jc : Word32) : State :=
  match s.block core with
  | none => s
  | some b =>
    let inSet (c : Core) : Bool := b.launch.sameSet c.block.launch
    let parking (c : Core) : Bool :=
      match c.block.stopReq with
      | some (.park _ _) => true
      | _ => false
    if s.cores.any (fun c => inSet c && parking c) then s
    else
      { s with cores := s.cores.map (fun c =>
          if c.num == core then { c with block := c.block.askStop s.clock (.park rcd jc) }
          else if inSet c then { c with block := c.block.askStop s.clock .host }
          else c) }

/-- PARK: every warp of the block stops at its next region entry, the issuing one too (R350). It is a release of the warp's earlier
events (R344). -/
def execPark (f : FormH) (s : State) : Host.Outcome State Fault Refusal :=
  issue (.park f) (fun t =>
    let a := t.w.rs f.sa
    match t.recordAt a with
    | .error e => .fault e
    | .ok _ =>
      if !t.drained then .wait
      else
        let t1 : View := { t with dev := t.dev.touch (some t.core) t.blk.launch.ctx a [700] }
        .ok (t1.through (fun s => s.parkSet t.core a (BitVec.ofNat 32 (immNat f.fn f.imm))))) s

end Sys2Proof.Machine
end

