-- ==== Sys2Proof/Machine/Complete.lean ====
section
/-!
DEFINITION. The end of blocks and grids (spec 13 R331; spec 06 R119; spec 18 R505; spec 19 R454, R460).
-/
namespace Sys2Proof.Machine

/-! ### The device's writes -/

/-- The implicit commit of a grid, at grid scope (R331, R42). -/
def implicitCommit (tags : List TagRef) : Commit :=
  { warp := none, issued := none, scope := 4, tags := tags, needTag := false, wantTag := false, tagSince := 0, sent := false, sentSince := 0, awaited := [], status := 0,
    failPa := none, released := true }

/-- Decrements the block count of a running grid; at 0 the grid's implicit commit begins (R331). -/
def State.tryBlockDone (s : State) (ctx : Nat) (sys : Bool) (rcd : Addr) (who : Whose) : DevRes :=
  match s.devTranslate ctx sys .rmw rcd with
  | .error f => s.devFails ctx sys f (devRecord f rcd .write who)
  | .ok d =>
    let jc := s.readAt d 16 4 - 1
    let s1 := (s.devTouch ctx rcd).writeAt d 16 (leBytes 4 jc)
    if jc = 0 then
      .done { s1 with grids := s1.grids.map (fun g =>
        if g.record == rcd && g.ctx == ctx && g.commit.isNone then { g with commit := some (implicitCommit g.tags) } else g) }
    else .done s1

/-- The same, now or when the record's page becomes resident (R505). -/
def State.blockDone (s : State) (ctx : Nat) (sys : Bool) (rcd : Addr) (who : Whose) : State :=
  (s.tryBlockDone ctx sys rcd who).orHold (.blockDone ctx sys rcd who)

/-! ### Blocks (R331) -/

/-- Every warp and job of the block is over, its stores and atomics are performed, its log is drained and its commit has completed. -/
def Block.over (b : Block) : Bool :=
  b.warps.all (fun w => w.life != .live && w.buf.isEmpty && w.loads.isEmpty && w.ops.isEmpty) && b.jobs.isEmpty && b.log.isEmpty && b.commit.isNone

/-- Whether a chain of rank 0 of the core's gang has still to go through the core's array (R313). -/
def State.chainComing (s : State) (c : Core) : Bool :=
  let l := c.block.launch
  s.cores.any (fun d => d.num + l.rank == c.num && d.block.launch.rank == 0 && d.block.launch.record == l.record &&
    d.block.warps.any (fun w => w.ops.any (fun o =>
      match o.body with
      | .chain _ left _ _ _ _ => l.rank < left
      | _ => false)))

/-- Device work for a block that is not done: its placement, its status writes, and the ends of its warps (R436, R505). -/
def DevEvent.delays (e : DevEvent) (core : Nat) (l : Launch) : Bool :=
  let mine (ctx : Nat) (who : Whose) : Bool := ctx == l.ctx && who.core == core && who.block == l.block
  match e with
  | .place c => c == core
  | .ended c _ _ _ => c == core
  | .write c _ _ _ who => mine c who
  | .area c _ _ _ _ _ who => mine c who
  | .flt c _ _ who => mine c who
  | .withdraw c _ _ who => mine c who
  | _ => false

/-- Whether the block on a core is over, with its NETST stores acknowledged, which the release at its grid's completion follows
(R331). -/
def State.coreOver (s : State) (c : Core) : Bool :=
  c.block.over && !s.chainComing c && !s.devEvents.any (fun e => e.1.delays c.num c.block.launch) &&
    !s.requests.any (fun r => r.core == c.num && r.saved.isNone && r.kind.stores)

/-- Whether a place belongs to a core. -/
def onCore (p : Place) (c : Nat) : Bool :=
  match p with
  | .vreg d _ _ _ => d == c
  | .sreg d _ _ => d == c
  | .pred d _ _ => d == c
  | .slice d _ _ _ => d == c
  | .scratch d _ => d == c
  | .fifo d _ _ => d == c
  | .slot d _ _ => d == c
  | .plane d _ => d == c
  | .memory _ => false
  | .cached _ => false
  | .vaultCached _ => false
  | .packet _ => false
  | .frame _ => false

/-- A core without its block: its wait for a tag and its error marks end. -/
def State.freeCore (s : State) (core : Nat) : State :=
  { s with
    cores := s.cores.filter (fun c => c.num != core)
    cats := s.cats.map (fun k => { k with waiting := k.waiting.filter (fun x => x != core) })
    bad := s.bad.filter (fun p => !onCore p core) }

/-- The tags of a completed block stay open with its grid (R331). -/
def State.keepTags (s : State) (l : Launch) (tags : List TagRef) : State :=
  if s.grids.any l.ofGrid then
    { s with grids := s.grids.map (fun g => if l.ofGrid g then { g with tags := g.tags ++ tags } else g) }
  else s.freeTags tags false

/-- A block completes (R331): its core is idle, a continuation's record takes JC 0 and STATUS 0x04, and the grid's block
count falls. -/
def State.completeBlock (s : State) (c : Core) : State :=
  let b := c.block
  let l := b.launch
  let s1 := (s.freeCore c.num).keepTags l (b.tag.toList ++ b.pendingTags)
  let s2 := { s1 with requests := s1.requests.filter (fun r => !(r.core == c.num && r.saved.isNone)) }
  let s3 := match l.cont with
    | some a => (s2.devWrite l.ctx l.sys (a + 16) (leBytes 4 0) (l.whose c.num 0)).devWrite l.ctx l.sys (statusVa a) [4] (l.whose c.num 0)
    | none => s2
  s3.blockDone l.ctx l.sys l.record (l.whose c.num 0)

/-- Completes every block that is over. -/
def State.completeBlocks (s : State) : State :=
  (s.cores.filter s.coreOver).foldl State.completeBlock s

/-! ### Grids (R331) -/

/-- GRID_COMPLETION: the implicit commit of the k-th grid has completed; its record takes STATUS 0x04 and its successor's join
counter falls. While the record's page is not resident the grid waits (R505). -/
def execGridCompletion (grid : Nat) (s : State) : Host.Outcome State Fault Refusal :=
  match s.grids[grid]? with
  | none => s.same
  | some g =>
    match g.commit with
    | none => s.same
    | some c =>
      let p : Party := .grid g.ctx g.record
      if !c.acked || !s.mayTry p then s.same
      else
        let fin (s : State) : State :=
          let s1 := ({ s with grids := s.grids.eraseIdx grid }).freeTags c.tags (c.status.getLsbD 1)
          if g.succ = 0 then s1 else s1.devJoin g.ctx g.sys g.succ 1
        match (s.trying p).tryDevWrite g.ctx g.sys (statusVa g.record) [4] with
        | .done s1 => .next (fin s1)
        | .refused s1 => .next (fin s1)
        | .waits s1 since => .next (s1.holdSince (.party g.ctx p) since)

/-! ### What follows when blocks are gone -/

/-- PRE is over when no block of its contexts is stopping any longer, and done if none failed to be saved (R454). -/
def State.settlePre (s : State) : State :=
  if !s.host.preBusy || s.cores.any (fun c => s.host.preSet.contains c.block.launch.ctx && c.block.stopReq.isSome) then s
  else { s with host := { s.host with preBusy := false, preSet := [], preDone := !s.host.preFailed } }

/-- The records queued in a run queue of a context, as far as the device can read them. -/
def State.queuedRecords (s : State) (ctx q : Nat) : List Rec :=
  match s.devTranslate ctx false .read (s.qcbVa ctx q) with
  | .error _ => []
  | .ok d =>
    let c := s.readQcb d
    if !c.ok then []
    else
      (List.range ((c.tail + 2 ^ 32 - c.head) % 2 ^ 32)).filterMap (fun i =>
        match s.devTranslate ctx false .read (c.entryVa (c.head + i) 8) with
        | .error _ => none
        | .ok e =>
          match s.devTranslate ctx false .read (BitVec.ofNat 64 (s.readAt e 0 8 % 2 ^ 55)) with
          | .error _ => none
          | .ok d => some (Rec.ofBytes (s.readVia d.via d.pa 64)))

/-- The cooperative grids that are accepted and have not completed (R43): in flight, queued, or waiting for a join counter. -/
def State.acceptedCoops (s : State) : List Rec :=
  let flying := (s.grids.filter (fun g => g.commit.isNone)).map (fun g => Rec.ofBytes (g.raw ++ List.replicate 4 0))
  let queued := (List.range 64).flatMap (fun c => (List.range 8).flatMap (fun q => s.queuedRecords c q))
  let armed := (s.armedCoops.filter (fun pa => s.homeBytes (pa + 60) 1 == [1])).map (fun pa => Rec.ofBytes (s.homeBytes pa 64))
  (flying ++ queued ++ armed).filter (fun r => r.coop && !r.cont)

/-- The quiesces that have effect, in the order of their commands: one waits while an accepted cooperative grid would no longer be
residable without its gallery (R460). -/
def State.quiesced (s : State) : List Nat :=
  if s.service.quiescing.isEmpty then []
  else
    let rs := s.acceptedCoops
    let less (gs : List Nat) : State := { s with service := { s.service with out := gs ++ s.service.out } }
    s.service.quiescing.foldl (fun gs g => if rs.all (fun r => !s.residable r || (less (g :: gs)).residable r) then g :: gs else gs) []

/-- A quiescing gallery leaves service when it holds no block (R460). -/
def State.settleService (s : State) : State :=
  match s.quiesced.find? (fun g => !s.cores.any (fun c => c.num / 8 == g)) with
  | none => s
  | some g => { s with service := { s.service with quiescing := s.service.quiescing.filter (fun x => x != g), out := addAll s.service.out [g] } }

/-- A context has ended: the host does not schedule it, its descriptor is not in force, and it has no resident block (R378, R450;
log entry 51). -/
def State.contextEnded (s : State) (ctx : Nat) : Bool :=
  !s.host.ctxen.getLsbD ctx && !s.cores.any (fun c => c.block.launch.ctx == ctx) && !(s.readCtxDesc ctx).ok &&
    s.descCache.all (fun e => e.1 != ctx || !e.2.ok)

/-- The group table's entries of contexts that have ended are free (R356). -/
def State.settleGroups (s : State) : State := { s with groups := s.groups.filter (fun e => !s.contextEnded e.ctx) }

/-- A wait for a handle fails for good once the handle is freed before a TTAKE gets it (R303), or is owned again before a TALLOC
does (R301). -/
def Block.watch (b : Block) (w : Warp) : Warp :=
  let st (h : Nat) : HandleSt := (b.handles.getD h .zero).st
  match w.wait with
  | some (.take h) => if st h == .free || st h == .freed then { w with wait := some (.failed 0x04 0x01) } else w
  | some (.alloc h) => if st h == .owned || st h == .handed then { w with wait := some (.failed 0x04 0x0C) } else w
  | _ => w

/-- What waiting warps have met is kept. -/
def State.watched (s : State) : State :=
  { s with cores := s.cores.map (fun c => { c with block := { c.block with warps := c.block.warps.map c.block.watch } }) }

/-- An early release is over once the earlier events of its warp have been performed (R246; log entry 8). -/
def State.settleEarly (s : State) : State :=
  if s.early.isEmpty then s
  else { s with early := s.early.filter (fun e => (((s.block e.core).bind (fun b => b.warp e.warp)).map (fun w => !s.allDone e.core w e.seq)).getD false) }

/-- Everything that follows by itself from the state: waiting warps take note of their handles, early releases and terminations end,
barriers of warps that have all arrived release, commits go on, blocks that are over complete, requests of the host are served. -/
def State.settled (s : State) : State :=
  s.watched.settleEarly.settleEnded.bsyncs.settleCommits.completeBlocks.settlePre.settleService.settleGroups

end Sys2Proof.Machine
end

