-- ==== Sys2Proof/Machine/CrossLane.lean ====
section
/-!
DEFINITION. The cross-lane and predicate instructions, opcodes 0x50 to 0x57, 0x5E and 0x5F (spec 08 R180 to
R191).
-/
namespace Sys2Proof.Machine

/-- Lane j of v(r) as a cross-lane instruction reads it: an exited lane supplies 0 (R180). -/
def Warp.xv (w : Warp) (r j : Nat) : Word32 := if w.liveLanes.getLsbD j then w.rv r j else 0

/-- Element j of the 64 lanes of v(r), v(r+1) (R181). -/
def Warp.x64 (w : Warp) (r j : Nat) : Word32 := if j < 32 then w.xv r j else w.xv (r + 1) (j - 32)

/-- VSLIDE's value for lane l and slide k (R181). -/
def Warp.slide (w : Warp) (var : BitVec 2) (r k l : Nat) : Word32 :=
  match var.toNat with
  | 0 => if l + k < 64 then w.x64 r (l + k) else 0
  | 1 => if k ≤ l + 32 then w.x64 r (l + 32 - k) else 0
  | 2 => if l + k < 32 then w.xv r (l + k) else 0
  | _ => if k ≤ l then w.xv r (l - k) else 0

/-- The operations of VREDUCE and VSCAN (R184). -/
def reduceOp (c : Nat) (x y : Word32) : Flagged Word32 :=
  match c with
  | 0 => .pure (x + y)
  | 1 => .pure (if y.slt x then y else x)
  | 2 => .pure (if x.slt y then y else x)
  | 3 => .pure (if y.ult x then y else x)
  | 4 => .pure (if x.ult y then y else x)
  | 5 => .pure (x &&& y)
  | 6 => .pure (x ||| y)
  | 7 => .pure (x ^^^ y)
  | 8 => (fmtF32.addBits x.toNat y.toNat).word
  | 9 => (fmtF32.minMax false x.toNat y.toNat).word
  | _ => (fmtF32.minMax true x.toNat y.toNat).word

/-- The identities of R184. -/
def reduceId (c : Nat) : Word32 :=
  match c with
  | 1 => 0x7FFFFFFF
  | 2 => 0x80000000
  | 3 => 0xFFFFFFFF
  | 5 => 0xFFFFFFFF
  | 8 => 0x80000000
  | 9 => 0x7F800000
  | 10 => 0xFF800000
  | _ => 0

/-- One node of the tree: both children combined, the one present, or absent (R185). An element that no operation touches passes bit
for bit with no flag, a NaN too, where R53 leaves open whether it is made canonical (log entry 68). -/
def treeNode (c : Nat) (x y : Option (Flagged Word32)) : Option (Flagged Word32) :=
  match x, y with
  | some a, some b =>
    let r := reduceOp c a.val b.val
    some { r with fp := a.fp ||| b.fp ||| r.fp }
  | some a, none => some a
  | none, y => y

/-- A level of the tree from the one below (R185). -/
def treeLevel (c : Nat) : List (Option (Flagged Word32)) → List (Option (Flagged Word32))
  | x :: y :: r => treeNode c x y :: treeLevel c r
  | r => r

/-- VREDUCE's result over the lanes of a mask (R185). -/
def reduceTree (c : Nat) (e : LaneMask) (g : Nat → Word32) : Flagged Word32 :=
  let leaves := (List.range 32).map (fun l => if e.getLsbD l then some (Flagged.pure (g l)) else none)
  (((treeLevel c (treeLevel c (treeLevel c (treeLevel c (treeLevel c leaves))))).headD none)).getD (.pure 0)

/-- VSCAN's running values: for each lane in order, the value before and after its own element, with the flags of
its step (R186). -/
def scanFrom (c : Nat) (g : Nat → Word32) : List Nat → Word32 → List (Nat × Word32 × Flagged Word32)
  | [], _ => []
  | l :: r, acc =>
    let x := reduceOp c acc (g l)
    (l, acc, x) :: scanFrom c g r x.val

/-- The scan of a list of lanes: the running value starts at the first lane's element as it is, a NaN too (R186, R53; log entry 68). -/
def scanLanes (c : Nat) (g : Nat → Word32) : List Nat → List (Nat × Word32 × Flagged Word32)
  | [] => []
  | l :: r => (l, reduceId c, .pure (g l)) :: scanFrom c g r (g l)

/-- A predicate read through an operand field: bits [2:0] the predicate, bit 3 its inversion (R187, R189). -/
def Warp.predOp (w : Warp) (f : BitVec 7) : Word32 :=
  let p := w.rp (f.extractLsb' 0 3).toNat
  if f.getLsbD 3 then ~~~p else p

/-! ### Meanings -/

/-- VSLIDE (R181). -/
def execVslide (f : FormA) (s : State) : Host.Outcome State Fault Refusal :=
  issue (.vslide f) (fun t =>
    let k := (t.w.rs (f.b.toNat % 64)).toNat
    .ok (t.setW (t.w.wvEach f.d.toNat (t.w.slide f.var f.a.toNat k) t.effLanes))) s
/-- VSHUF (R182). -/
def execVshuf (f : FormA) (s : State) : Host.Outcome State Fault Refusal :=
  issue (.vshuf f) (fun t =>
    let w := t.w
    .ok (t.setW (w.wvEach f.d.toNat (fun l =>
      let b := (w.opB f l).toNat
      match f.var.toNat with
      | 0 => w.xv f.a.toNat (b % 32)
      | 1 => if b < 32 then w.xv f.a.toNat b else 0
      | _ => w.xv f.a.toNat (l ^^^ (b % 32))) t.effLanes))) s
/-- VBCAST (R183). -/
def execVbcast (f : FormA) (s : State) : Host.Outcome State Fault Refusal :=
  issue (.vbcast f) (fun t =>
    let w := t.w
    let j := if f.var.toNat ≤ 1 then (w.rs (f.b.toNat % 64)).toNat % 32 else t.lowLane
    .ok (t.setW (w.wvGroup f.d.toNat (fun r _ => w.xv (f.a.toNat + r) j) t.effLanes (if f.var == 1 || f.var == 3 then 2 else 1)))) s
/-- VREDUCE (R185). -/
def execVreduce (f : FormA) (s : State) : Host.Outcome State Fault Refusal :=
  issue (.vreduce f) (fun t =>
    let c := f.b.toNat
    let r := reduceTree c t.eff (t.w.rv f.a.toNat)
    let w := t.w.addFlags r.fp false
    if f.var == 0 then .ok (t.setW (w.wvEach f.d.toNat (fun _ => r.val) t.effLanes))
    else .ok (t.setW (w.ws (f.d.toNat % 64) (if c ≤ 2 then r.val.signExtend 64 else r.val.setWidth 64)))) s
/-- VSCAN (R186). -/
def execVscan (f : FormA) (s : State) : Host.Outcome State Fault Refusal :=
  issue (.vscan f) (fun t =>
    let xs := scanLanes f.b.toNat (t.w.rv f.a.toNat) t.effLanes
    let val (l : Nat) : Word32 :=
      match xs.find? (fun x => x.1 == l) with
      | some x => if f.var == 0 then x.2.2.val else x.2.1
      | none => 0
    .ok (t.setW ((t.w.wvEach f.d.toNat val t.effLanes).addFlags (flagsOf (xs.map (fun x => x.2.2))) false))) s
/-- VOTE (R187). -/
def execVote (f : FormA) (s : State) : Host.Outcome State Fault Refusal :=
  issue (.vote f) (fun t =>
    let m := t.eff &&& t.w.predOp f.a
    if f.var == 2 then .ok (t.setW (t.w.ws (f.d.toNat % 64) (m.setWidth 64)))
    else
      let r := match f.var.toNat with
        | 0 => m != 0
        | 1 => m == t.eff
        | _ => m == 0 || m == t.eff
      t.putP f.d.toNat (fun _ => r)) s
/-- PSET (R188). -/
def execPset (f : FormA) (s : State) : Host.Outcome State Fault Refusal :=
  issue (.pset f) (fun t =>
    t.putP f.d.toNat (fun l =>
      match f.var.toNat with
      | 0 => t.w.rv f.a.toNat l != 0
      | 1 => (t.w.rs (f.a.toNat % 64)).getLsbD l
      | 2 => true
      | _ => false)) s
/-- PMOV (R189). -/
def execPmov (f : FormA) (s : State) : Host.Outcome State Fault Refusal :=
  issue (.pmov f) (fun t =>
    let a := t.w.predOp f.a
    let b := t.w.predOp f.b
    let r := match f.var.toNat with
      | 0 => a &&& b
      | 1 => a ||| b
      | 2 => a ^^^ b
      | _ => a &&& ~~~b
    .ok (t.setW (t.w.wp f.d.toNat t.eff r))) s
/-- VMATCH (R190). -/
def execVmatch (f : FormA) (s : State) : Host.Outcome State Fault Refusal :=
  issue (.vmatch f) (fun t =>
    let w := t.w
    let same (i j : Nat) : Bool :=
      w.rv f.a.toNat i == w.rv f.a.toNat j && (f.var == 0 || w.rv (f.a.toNat + 1) i == w.rv (f.a.toNat + 1) j)
    .ok (t.setW (w.wvEach f.d.toNat (fun l => t.eff &&& maskOf (fun j => same l j)) t.effLanes))) s
/-- VLANE (R191). The slice variant follows the warp's earlier accesses of the bytes it reads (R204, R241). -/
def execVlane (f : FormA) (s : State) : Host.Outcome State Fault Refusal :=
  issue (.vlane f) (fun t =>
    let w := t.w
    let put (g : Nat → Word32) : Res := .ok (t.setW (w.wvEach f.d.toNat g t.effLanes))
    match f.var.toNat with
    | 0 => put (fun l => BitVec.ofNat 32 l)
    | 1 => put (fun l => BitVec.ofNat 32 ((t.effLanes.filter (fun j => j < l)).length))
    | 2 =>
      let off := (w.rs (f.b.toNat % 64)).toNat
      if 256 ≤ off then .fault (flt 0x07 0x00)
      else if off % 4 != 0 then .fault (flt 0x0A 0x00)
      else if t.effLanes.any (fun l =>
        let loc : Loc := .slice ((w.rv f.a.toNat l).toNat % 32) off
        w.ownStores loc 4 || w.ownReads loc 4) then .wait
      else
        let src (l : Nat) : Nat := (w.rv f.a.toNat l).toNat % 32
        if !t.dev.bad.isEmpty && t.effLanes.any (fun l => w.liveLanes.getLsbD (src l) && t.dev.bad.contains (.slice t.core w.num (src l) (off / 4)))
        then .fault (flt 0x0E 0x00)
        else put (fun l =>
          if w.liveLanes.getLsbD (src l) then BitVec.ofNat 32 (Cells.readLE w.slices (sliceKey (src l) off) 4) else 0)
    | _ => put (fun l => BitVec.ofNat 32 (32 * w.num + l))) s

end Sys2Proof.Machine
end

