-- ==== Sys2Proof/Machine/Placement.lean ====
section
/-!
DEFINITION. The state of a block and its warps when a block is placed (spec 06 R119, R120, R126; spec 09
R210; spec 12 R296, R308; spec 13 R330, R332).
-/
namespace Sys2Proof.Machine

/-- The descriptor that names nothing live. -/
def LiveDesc.none : LiveDesc := { index := 0, v := 0, s := 0, h := 0, p := false, g := 0 }

/-- A warp at placement: one running split of 32 lanes at the entry clause (R119, R120). -/
def Warp.start (n : Nat) (entry : Addr) (dead : Option FaultInfo) : Warp :=
  let ring : List Split := [{ pc := entry, mask := 0xFFFFFFFF, st := .running }]
  { num := n, life := .live, started := false, ring := ring, depth := 0, hw := [], frame := false, clause := none,
    v := [], s := [], p := [], fpflags := 0, satflag := 0, fs := 0, enrol := List.replicate 4 none, counters := [],
    slices := [], desc := .none,
    ckpt := { resume := entry, seq := 0, ring := ring, depth := 0, hw := [], desc := .none, handles := [], array := none, planes := none, frame := false },
    tent := [], pushes := [], held := [], seq := 0, loads := [], buf := [], fence := none, ops := [], outst := none, waiting := none,
    wait := none, lastIssue := 0, polledAt := 0, yielded := false, plan := [], ahead := [], stop := .no,
    askedAt := 0, faultWait := false, faultSince := 0, backCount := 0, jobFault := none, dead := dead }

/-- The bank modes of a record's split: 4q banks of scratchpad, f of FIFO, the rest cache ways (R210). -/
def bankSplit (q f : Nat) : Cells 2 :=
  Cells.setMany [] 0 (List.replicate (4 * q) 2#2 ++ List.replicate f 3#2 ++ List.replicate (48 - 4 * q - f) 1#2)

/-- The shape word's fields (R322). -/
def shapeWarps (x : Word32) : Nat := (x.extractLsb' 0 6).toNat + 1
def shapeRegs (x : Word32) : Nat := 8 * ((x.extractLsb' 6 4).toNat + 1)
def shapeQ (x : Word32) : Nat := (x.extractLsb' 10 4).toNat
def shapeF (x : Word32) : Nat := (x.extractLsb' 14 6).toNat
def shapeG (x : Word32) : Nat := 2 ^ (x.extractLsb' 20 2).toNat
def shapeStagger (x : Word32) : Nat := (x.extractLsb' 22 8).toNat

/-- The quadrants of warps, by number: the first eight of each active, the others pending (R24, R332). -/
def quadsOf (ns : List Nat) : List Quad :=
  (List.range 4).map (fun q =>
    let ws := ns.filter (fun w => w % 4 == q)
    { active := ws.take 8, pending := (ws.drop 8).map (fun w => { num := w, since := 0, marks := [] }), last := none })

/-- A block at placement, before its rule table and deferred tag (R119, R210, R296, R308, R330). -/
def Block.start (l : Launch) (entry : Addr) (stagger : Word32) (dead : Option FaultInfo) : Block :=
  { launch := l, staggered := stagger.extractLsb' 8 24 != 0, warps := (List.range l.nwarps).map (fun n => Warp.start n entry dead),
    bankMode := bankSplit (shapeQ l.shape) (shapeF l.shape), bankChanges := [], rwperm := 0, rwLast := none, stagger := stagger,
    scratch := [], fifo := [], fifoWait := [], handles := List.replicate 32 .zero, slots := [], array := .zero, jobs := [], rules := [],
    log := [], tag := none, pendingTags := [], commit := none, counters := [],
    quads := quadsOf (List.range l.nwarps), xqueues := [[], [], [], []], xpipe := [[], [], [], []], stopReq := none }

end Sys2Proof.Machine
end

