-- ==== Sys2Proof/Machine/Packets.lean ====
section
/-!
DEFINITION. Packets of the fabric pushes (spec 14 R352 to R356, R361, R368, R371, R376): words and stores grouped
by their homes, and the sender's own group entry.
-/
namespace Sys2Proof.Machine

/-- The home device of an aperture address (R352). -/
def homeOf (pa : Nat) : BitVec 6 := BitVec.ofNat 6 (pa / 2 ^ 41)

/-- The physical address at the home of a memory-kind address (R352). -/
def physOf (pa : Nat) : Nat := pa % 2 ^ 40

/-- The group of a reduction-kind address, and the offset in its window (R352). -/
def grpOf (pa : Nat) : BitVec 8 := BitVec.ofNat 8 (pa / 2 ^ 32)
def winOff (pa : Nat) : Nat := pa % 2 ^ 32

/-- Groups items by a key, in the order of each key's first item; items keep their order. -/
def groupBy {α : Type} (key : α → Nat) : List α → List (List α)
  | [] => []
  | a :: r =>
    let gs := groupBy key r
    match gs.find? (fun g => (g.head?.map key) == some (key a)) with
    | none => [a] :: gs
    | some g => (a :: g) :: gs.filter (fun g => (g.head?.map key) != some (key a))

/-- The 64 KB pages at the home of those aperture addresses that lie in pages of a list. -/
def pagesIn (pages pas : List Nat) : List Nat := addAll [] ((pas.filter (fun pa => pages.contains (pa / 65536))).map (fun pa => physOf pa / 65536))

/-- NETST packets: one for each home and 2 KB segment (R371); `dfr` lists the aperture pages that are deferred (R234). -/
def storePackets (items : List (Nat × List Byte)) (sc : Bool) (src : Option (Nat × Word64)) (dfr : List Nat := []) : List Push :=
  (groupBy (fun (x : Nat × List Byte) => x.1 / 2048) items).map (fun g =>
    let pa := (g.headD (0, [])).1
    { dest := homeOf pa, drain := none, sc := sc, src := src,
      msg := .store { sender := 0, ident := 0, stores := g.map (fun x => (physOf x.1, x.2)), deferred := pagesIn dfr (g.map Prod.fst) } })

/-- What names the fabric instruction that issues to its packets (R366, R427). -/
def View.fabSrc (t : View) : Option (Nat × Word64) := some (t.w.seq, t.dev.clock)

/-- The packet of a drained row, one for each home where pages cut the row (R320; log entry 73); `dfr` as for NETST. -/
def rowPackets (items : List (Nat × List Byte)) (drain : Nat) (src : Option (Nat × Word64)) (dfr : List Nat := []) : List Push :=
  (groupBy (fun (x : Nat × List Byte) => (homeOf x.1).toNat) items).map (fun g =>
    { dest := homeOf (g.headD (0, [])).1, drain := some drain, sc := false, src := src,
      msg := .store { sender := 0, ident := 0, stores := g.map (fun x => (physOf x.1, x.2)), deferred := pagesIn dfr (g.map Prod.fst) } })

/-- The group entry a context owns under a number (R356). -/
def State.groupEntry (s : State) (ctx : Nat) (g : BitVec 8) : Option GroupEntry :=
  s.groups.find? (fun e => e.grp == g && e.ctx == ctx)

/-- Contribution packets: one for each home, group and chunk, with the key and epoch of the sender's entry (R361, R368). -/
def State.contribPackets (s : State) (ctx : Nat) (typ : BitVec 4) (topk : Bool) (items : List (Nat × Word32)) (drain : Option Nat) (src : Option (Nat × Word64)) :
    List Push :=
  (groupBy (fun (x : Nat × Word32) => x.1 / 2048) items).filterMap (fun g =>
    let pa := (g.headD (0, 0)).1
    (s.groupEntry ctx (grpOf pa)).map (fun e =>
      { dest := homeOf pa, drain := drain, sc := false, src := src,
        msg := .contribution { sender := 0, ident := 0, grp := e.grp, epoch := e.epoch, key := e.key, typ := typ,
                               chunk := winOff pa / 2048, topk := topk,
                               words := g.map (fun x => (winOff x.1 % 2048 / 4, x.2)) } }))

/-- Replaces the HOME of an aperture address (R354). -/
def withHome (pa : Nat) (h : BitVec 6) : Nat := pa - 2 ^ 41 * (pa / 2 ^ 41 % 64) + 2 ^ 41 * h.toNat

/-- Replaces the GRP of a reduction-kind address (R376). -/
def withGrp (pa : Nat) (g : BitVec 8) : Nat := pa - 2 ^ 32 * (pa / 2 ^ 32 % 256) + 2 ^ 32 * g.toNat

end Sys2Proof.Machine
end

