-- ==== Sys2Proof/Machine/Tiles.lean ====
section
/-!
DEFINITION. The handle map and the tile instructions other than the array's (spec 12 R296 to R307, R315 to R320; spec
09 R218 to R221; spec 02 R36, R39; spec 03 R56, R58, R61, R62, R66, R73).
-/
namespace Sys2Proof.Machine

/-! ### Tiles (R297, R218, R221) -/

/-- Replaces an entry. -/
def Block.setHandle (b : Block) (h : Nat) (e : HandleEntry) : Block := { b with handles := b.handles.set h e }

/-- Bytes from one row to the next in a slot or slot pair (R218). -/
def HandleEntry.stride (e : HandleEntry) : Nat := if e.acc then 256 else 128

/-- A 16-bit tile: .f16 or .bf16 with K = 64 (R297). -/
def HandleEntry.is16 (e : HandleEntry) : Bool := (e.fmt == 1 || e.fmt == 2) && e.k == 64

/-- The format is an integer format. -/
def HandleEntry.isInt (e : HandleEntry) : Bool := e.fmt == 6 || e.fmt == 7 || e.fmt == 10

/-- Rows of bytes from `base` on; the keys are visited once. -/
def rowsOf (m : Cells 8) (base stride n : Nat) : List (List Byte) :=
  (List.range n).map (fun i => Cells.getMany (Cells.slice m (base + stride * i) (base + stride * (i + 1))) 0 stride)

/-- The 64 rows of the current version; zeros where there is none (R220, R446). -/
def Block.tileRows (b : Block) (e : HandleEntry) : List (List Byte) :=
  if e.v then rowsOf b.slots (8192 * e.slot) e.stride 64 else List.replicate 64 (List.replicate e.stride 0)

/-- The elements of a row of bytes as raw encodings. -/
def rawRow (fmt : BitVec 4) (k : Nat) (bs : List Byte) : List Nat :=
  let n := fmtBits fmt / 8
  (List.range k).map (fun j => leNat ((bs.drop (n * j)).take n))

/-- The elements of a row as exact values, q4 decoded (R55, R56). -/
def valRow (fmt : BitVec 4) (k : Nat) (bs : List Byte) : List Num :=
  if fmt == 5 then
    (List.range k).map (fun j => decodeQ4 (bs.getD (64 + j / 4) 0).toNat ((bs.getD (j / 2) 0).toNat / 2 ^ (4 * (j % 2)) % 16))
  else (rawRow fmt k bs).map (readNum fmt)

/-- Encoded elements as bytes of a row. -/
def packRow (fmt : BitVec 4) (stride : Nat) (vs : List Nat) : List Byte :=
  let bs := vs.flatMap (fun v => leBytes (fmtBits fmt / 8) v)
  bs ++ List.replicate (stride - bs.length) 0

/-- A matrix given by its rows, transposed; `n` columns. -/
def columns {α : Type} (n : Nat) (z : α) (rows : List (List α)) : List (List α) :=
  (List.range n).map (fun j => rows.map (fun r => r.getD j z))

/-- ReadTile for every element: rows of exact values, transposed or not (R221). -/
def Block.tileVals (b : Block) (e : HandleEntry) (tr : Bool) : List (List Num) :=
  let rows := (b.tileRows e).map (valRow e.fmt e.k)
  if tr then columns 64 (.fin false 0 0) rows else rows

/-- The same as raw encodings, for formats other than q4. -/
def Block.tileRaw (b : Block) (e : HandleEntry) (tr : Bool) : List (List Nat) :=
  let rows := (b.tileRows e).map (rawRow e.fmt e.k)
  if tr then columns 64 0 rows else rows

/-! ### Uncorrectable errors in slots (R437) -/

/-- The 128-byte rows of slots that row `i` of a tile occupies (R218). -/
def HandleEntry.rowKeys (e : HandleEntry) (i : Nat) : List (Nat × Nat) :=
  if e.acc then [(e.slot + i / 32, 2 * (i % 32)), (e.slot + i / 32, 2 * (i % 32) + 1)] else [(e.slot, i)]

/-- Whether any of the rows of a tile holds an error. -/
def View.badTile (t : View) (e : HandleEntry) (rows : List Nat) : Bool :=
  !t.dev.bad.isEmpty && e.v && rows.any (fun i => (e.rowKeys i).any (fun p => t.dev.bad.contains (.slot t.core p.1 p.2)))

/-- Marks after a new version: rows copied keep their mark, rows written are whole (R437). -/
def State.carryMarks (s : State) (core : Nat) (old new : HandleEntry) (upd : List Nat) (copies : Bool) : State :=
  if s.bad.isEmpty then s
  else
    let mark (e : HandleEntry) (i : Nat) : List Place := (e.rowKeys i).map (fun p => .slot core p.1 p.2)
    let all := (List.range 64).flatMap (mark new)
    let kept := (List.range 64).filter (fun i => copies && old.v && !upd.contains i && (mark old i).any s.bad.contains)
    { s with bad := s.bad.filter (fun p => !all.contains p) ++ kept.flatMap (mark new) }

/-! ### Handle checks (R299) -/

/-- Steps 1, 3 and 4 of R299: `all` are the handles named, `own` those that the warp must own. -/
def View.checkHandles (t : View) (all own : List Nat) : Except FaultInfo Unit := do
  let st (h : Nat) : HandleEntry := t.blk.handle h
  let _ ← require (all.all (fun h => h < t.blk.launch.tiles)) (flt 0x04 0x0A)
  let _ ← require (all.all (fun h => (st h).st != .free && (st h).st != .freed)) (flt 0x04 0x01)
  let _ ← eachLane (fun (h : Nat) => do
    let _ ← require ((st h).own == t.w.num) (flt 0x04 0x02)
    require ((st h).st == .owned) (flt 0x04 0x03)) own
  .ok ()

/-- Continues after checks. -/
def Res.after (r : Except FaultInfo Unit) (k : Res) : Res :=
  match r with
  | .ok _ => k
  | .error f => .fault f

/-- A handle fault unless the condition holds. -/
def handleOk (b : Bool) (d : BitVec 16) : Except FaultInfo Unit := require b (flt 0x04 d)

/-! ### Writing a tile (R36, R39, R219, R220, R304) -/

/-- A free slot, or the even slot of a free pair; the lowest one (R219; log entry 35). -/
def Block.findSlot (b : Block) (acc : Bool) : Option Nat :=
  if acc then ((List.range 64).map (fun i => 2 * i)).find? (fun k => b.slotFree k && b.slotFree (k + 1))
  else (List.range 128).find? b.slotFree

/-- Whether the current version of a handle is the one of the warp's region entry (R219). -/
def Warp.entryVersion (w : Warp) (h : Nat) (e : HandleEntry) : Bool :=
  w.ckpt.handles.any (fun x => x.1 == h && x.2.v && e.v && x.2.slot == e.slot && x.2.acc == e.acc)

/-- The entry once its current version is superseded: a region-entry version is retained (R219). -/
def Warp.supersede (w : Warp) (h : Nat) (e : HandleEntry) : HandleEntry :=
  if w.entryVersion h e then { e with rslot := e.slot, rv := true } else e

/-- The rows a row-selecting instruction updates (R304). -/
def rowsE (t : View) : List Nat := t.effLanes.flatMap (fun l => [2 * l, 2 * l + 1])

/-- A new version of handle `h`, of the given format and shape, that instruction `i` makes; `body` gives what is under way for the
slot it takes, and the version is written when that completes (R305). -/
def View.startVersion (t : View) (i : Instr) (h : Nat) (fmt : BitVec 4) (acc : Bool) (rb : Nat) (copies : Bool) (body : Nat → OpBody) : Res :=
  let e := t.blk.handle h
  match (t.blk.setWarp t.w).findSlot acc with
  | none => .fault (flt 0x05 0x01)
  | some k =>
    let ks := if acc then [k, k + 1] else [k]
    let e1 : HandleEntry := { t.w.supersede h e with slot := k, v := true, fmt := fmt, acc := acc, rb := rb }
    let b := (((t.blk.setWarp t.w).setHandle h e1).stale h).loseSlots ks
    let w := (b.warp t.w.num).getD t.w
    .ok { t with
      dev := t.dev.carryMarks t.core e e1 (rowsE t) copies
      blk := b
      w := { w with
        seq := t.w.seq + 1
        ops := w.ops ++ [{ seq := t.w.seq, pc := t.pc, instr := i, since := t.dev.clock, body := body k }] } }

/-- A new version whose image is `rows`. `todo` is what a load still has to read. -/
def View.newVersion (t : View) (i : Instr) (h : Nat) (fmt : BitVec 4) (acc : Bool) (rb : Nat) (rows : List (List Byte)) (copies : Bool)
    (todo : List TilePiece) (dfr : Bool) : Res :=
  t.startVersion i h fmt acc rb copies (fun k => .tile k acc (Cells.ofList 0 rows.flatten) todo dfr)

/-- A write of the updated rows of handle `h` in its own format; the others are copied (R220, R304). -/
def View.writeRows (t : View) (i : Instr) (h : Nat) (f : Nat → List Byte → List Byte) : Res :=
  let e := t.blk.handle h
  let upd := rowsE t
  let rows := ((List.range 64).zip (t.blk.tileRows e)).map (fun x => if upd.contains x.1 then f x.1 x.2 else x.2)
  t.newVersion i h e.fmt e.acc e.rb rows true [] false

/-- A write of elements with their flags: `f r` gives the elements of updated row r. -/
def View.writeElems (t : View) (i : Instr) (h : Nat) (mask : FpFlags) (f : Nat → List (Flagged Nat)) : Res :=
  let e := t.blk.handle h
  let vals := (rowsE t).map (fun r => (r, f r))
  let fp := (vals.map (fun x => flagsOf x.2)).foldl (· ||| ·) 0
  let sat := vals.any (fun x => satOf x.2)
  let row (r : Nat) : List (Flagged Nat) := ((vals.find? (fun x => x.1 == r)).map Prod.snd).getD []
  (t.setW (t.w.addFlags (fp &&& mask) sat)).writeRows i h (fun r _ => packRow e.fmt e.stride ((row r).map Flagged.val))

/-- A write of a tile in a new format and shape; rows that are not updated are zero (R317, R318). -/
def View.writeConverted (t : View) (i : Instr) (h : Nat) (fmt : BitVec 4) (acc : Bool) (rb : Nat) (f : Nat → List Byte) : Res :=
  let stride := if acc then 256 else 128
  let upd := rowsE t
  let rows := (List.range 64).map (fun r => if upd.contains r then f r else List.replicate stride 0)
  t.newVersion i h fmt acc rb rows false [] false

/-- Frees a handle: state 3 until the region is confirmed; a region-entry version is retained (R219, R301). -/
def View.freeHandle (t : View) (h : Nat) : View :=
  let e := t.blk.handle h
  { t with blk := (t.blk.setHandle h { t.w.supersede h e with st := .freed, v := false }).stale h }

/-! ### Allocation and hand-over (R300 to R303) -/

/-- The handle a form H tile instruction names in [4:0]. -/
def hOf (f : FormH) : Nat := (f.fn.extractLsb' 0 5).toNat

/-- A wait for a handle: an end that has been found while the warp waited is met now, and otherwise `k` decides (R301, R303). -/
def View.afterWait (t : View) (k : Res) : Res :=
  match t.w.wait with
  | some (.failed c d) => .fault (flt c d)
  | _ => k

/-- The warp waits for a handle, and keeps what it waits for (R301, R303). -/
def View.waitFor (t : View) (x : Waiting) : Res := .hold (t.setW { t.w with wait := some x })

/-- TALLOC (R300, R301). -/
def execTalloc (f : FormF) (s : State) : Host.Outcome State Fault Refusal :=
  issue (.talloc f) (fun t =>
    let h := f.hd.toNat
    let e := t.blk.handle h
    let acc := f.hb.getLsbD 3
    if t.blk.launch.tiles ≤ h then .fault (flt 0x04 0x0A)
    else t.afterWait
      (if e.st == .freed && e.own != t.w.num then t.waitFor (.alloc h)
       else if e.st != .free && e.st != .freed then .fault (flt 0x04 0x0C)
       else
        let e1 : HandleEntry :=
          { HandleEntry.zero with own := t.w.num, st := .owned, fmt := f.ha.extractLsb' 0 4, acc := acc, rb := (f.hb.extractLsb' 0 3).toNat }
        .ok { t with blk := t.blk.setHandle h e1 })) s

/-- Steps 1 to 7 of TFREE and TZERO (R299). -/
def View.ownPre (t : View) (f : FormF) : Except FaultInfo Unit := t.checkHandles [f.hd.toNat] [f.hd.toNat]

/-- TFREE (R301). -/
def View.tfreeBody (t : View) (f : FormF) : Res := Res.after (t.ownPre f) (.ok (t.freeHandle f.hd.toNat))

/-- THAND: the handle is offered to another warp; a region entry after it (R302). -/
def execThand (f : FormH) (s : State) : Host.Outcome State Fault Refusal :=
  issue (.thand f) (fun t =>
    let h := hOf f
    let n := (t.w.rs f.sa).toNat
    Res.after (t.checkHandles [h] [h])
      (if t.blk.launch.nwarps ≤ n || n == t.w.num then .fault (flt 0x04 0x0B)
       else if !t.mayPass then .wait
       else ({ t with blk := t.blk.setHandle h { t.blk.handle h with st := .handed, tgt := n } }).enterAfter)) s

/-- TTAKE: the table of R303; a region entry after it. -/
def execTtake (f : FormH) (s : State) : Host.Outcome State Fault Refusal :=
  issue (.ttake f) (fun t =>
    let h := hOf f
    let e := t.blk.handle h
    let take : Res :=
      if !t.mayPass then .wait
      else ({ t with blk := t.blk.setHandle h { e with own := t.w.num, st := .owned, tgt := 0 } }).enterAfter
    if t.blk.launch.tiles ≤ h then .fault (flt 0x04 0x0A)
    else t.afterWait
      (match e.st with
       | .free => .fault (flt 0x04 0x01)
       | .freed => .fault (flt 0x04 0x01)
       | .handed =>
         if e.tgt == t.w.num || e.own == t.w.num then take
         else if t.w.wait.isSome then t.waitFor (.take h) else .fault (flt 0x04 0x0B)
       | .owned => if e.own == t.w.num then take else t.waitFor (.take h))) s

/-! ### TLD and TST (R306) -/

/-- Offset of memory row i: s(sa) + i × s(sb), as n32. -/
def View.moveOff (t : View) (f : FormH) (i : Nat) : Nat := ((t.w.rs f.sa).toNat + i * (t.w.rs f.sb).toNat) % 2 ^ 32

/-- The parts of a move: lane, memory row, offset in the row, size, and offsets in the tile's image. Plain moves go in
runs of 16 bytes; transposed ones in the pairs of elements that a lane's rows take of each memory row. -/
def View.moveParts (t : View) (e : HandleEntry) (tr : Bool) : List (Nat × Nat × Nat × Nat × List Nat) :=
  if tr then t.effLanes.flatMap (fun l => (List.range 64).map (fun j => (l, j, 4 * l, 4, [128 * (2 * l) + 2 * j, 128 * (2 * l + 1) + 2 * j])))
  else
    let n := if e.fmt == 5 then 6 else e.rowBytes / 16
    (rowsE t).flatMap (fun i => (List.range n).map (fun c => (i / 2, i, 16 * c, 16, [e.stride * i + 16 * c])))

/-- The memory rows whose bounds and alignment are checked, with the lane reported; a transposed move reads parts of
every memory row. -/
def View.moveRows (t : View) (f : FormH) (tr : Bool) : List (Nat × Int) :=
  if tr then (List.range 64).map (fun j => (t.lowLane, (t.moveOff f j : Int))) else (rowsE t).map (fun i => (i / 2, (t.moveOff f i : Int)))

/-- A part of a move at its place, with its leaf and the addresses translated for it. -/
structure MovePart where
  piece : TilePiece
  pte : Word64
  walked : List Addr
  deriving DecidableEq, Repr

/-- Resolves the parts of a move through an object, in the order of R266 (R306). -/
def View.moveGlobal (t : View) (f : FormH) (e : HandleEntry) (tr : Bool) (k : AccKind) : Except FaultInfo (Nat × ObjEntry × List MovePart) := do
  let l := t.blk.launch
  let n := (t.w.rs f.sd).toNat % 2 ^ 12
  let rowLen := if e.fmt == 5 then 96 else e.rowBytes
  let o ← faultLane t.lowLane (t.dev.objCheck t.core l.ctx n objSpaces k [])
  let va (x : Nat) : Addr := o.base + BitVec.ofNat 64 x
  let _ ← eachLane (fun (r : Nat × Int) =>
    require (r.2 + rowLen ≤ o.len) (((flt 0x07 0x00).at (va r.2.toNat)).onLane r.1)) (t.moveRows f tr)
  let _ ← eachLane (fun (r : Nat × Int) => require (r.2 % 16 == 0) (((flt 0x0A 0x00).at (va r.2.toNat)).onLane r.1)) (t.moveRows f tr)
  let at0 (p : Nat × Nat × Nat × Nat × List Nat) : Nat := t.moveOff f p.2.1 + p.2.2.1
  if o.layout == 1 then
    let ws ← eachLane (fun (p : Nat × Nat × Nat × Nat × List Nat) => do
      let vs := packedVas o (at0 p)
      let h ← t.dev.laneWalk l.ctx k p.1 vs.1
      let d ← t.dev.laneWalk l.ctx k p.1 vs.2
      Except.ok (p, vs, h, d)) (t.moveParts e tr)
    let ps ← eachLane (fun (q : (Nat × Nat × Nat × Nat × List Nat) × (Addr × Addr) × Leaf × Leaf) => do
      let _ ← faultLane q.1.1 (pageCheck k false false l.sys q.2.1.1 q.2.2.1)
      let _ ← faultLane q.1.1 (pageCheck k true false l.sys q.2.1.2 q.2.2.2)
      Except.ok ({ piece := { lane := q.1.1, va := some (va (at0 q.1)), loc := t.dev.chunkPlace o.cpol q.2.2.1 q.2.2.2 (at0 q.1 % 2048),
                              size := q.1.2.2.2.1, offs := q.1.2.2.2.2 }, pte := q.2.2.2.pte, walked := [q.2.1.1, q.2.1.2] } : MovePart)) ws
    Except.ok (n, o, ps)
  else
    let ws ← eachLane (fun (p : Nat × Nat × Nat × Nat × List Nat) => (t.dev.laneWalk l.ctx k p.1 (va (at0 p))).map (fun x => (p, x))) (t.moveParts e tr)
    let ps ← eachLane (fun (q : (Nat × Nat × Nat × Nat × List Nat) × Leaf) => do
      let _ ← faultLane q.1.1 (pageCheck k false false l.sys (va (at0 q.1)) q.2)
      Except.ok ({ piece := { lane := q.1.1, va := some (va (at0 q.1)), loc := t.dev.placeAt q.2 o.cpol, size := q.1.2.2.2.1, offs := q.1.2.2.2.2 },
                   pte := q.2.pte, walked := [va (at0 q.1)] } : MovePart)) ws
    Except.ok (n, o, ps)

/-- Resolves the parts of a move in the scratchpad, with the bounds of LDS and STS (R211, R306). -/
def View.moveScratch (t : View) (f : FormH) (e : HandleEntry) (tr : Bool) : Except FaultInfo (List MovePart) := do
  let rowLen := if e.fmt == 5 then 96 else e.rowBytes
  let _ ← eachLane (fun (r : Nat × Int) => require (r.2 + rowLen ≤ t.blk.scratchSize) ((flt 0x07 0x01).onLane r.1)) (t.moveRows f tr)
  let _ ← eachLane (fun (r : Nat × Int) => require (r.2 % 16 == 0) ((flt 0x0A 0x00).onLane r.1)) (t.moveRows f tr)
  .ok ((t.moveParts e tr).map (fun p =>
    { piece := { lane := p.1, va := none, loc := .bank t.core (t.moveOff f p.2.1 + p.2.2.1), size := p.2.2.2.1, offs := p.2.2.2.2 }, pte := 0, walked := [] }))

/-- A move's handle checks, then its places (R299, R306); `k` receives them. -/
def View.move (t : View) (f : FormH) (k : AccKind) (go : View → List MovePart → Res) : Res :=
  let h := hOf f
  let e := t.blk.handle h
  let tr := f.fn.getLsbD 5
  Res.after (do
    let _ ← t.checkHandles [h] [h]
    handleOk (!tr || e.is16) 0x06)
    (if f.fn.getLsbD 8 then
      match t.moveGlobal f e tr k with
      | .error x => .fault { x with kind := k.code }
      | .ok (n, _, ps) =>
        let l := t.blk.launch
        let d0 := t.dev.touchObj t.core l.ctx n []
        go { t with dev := d0.touchAll (some t.core) l.ctx ((addAll [] (ps.flatMap MovePart.walked)).map (fun va => (va, []))) } ps
     else if (t.moveParts e tr).any (fun p => t.blk.offBusy (t.moveOff f p.2.1 + p.2.2.1 : Nat)) then .wait
     else
      match t.moveScratch f e tr with
      | .error x => .fault x
      | .ok ps => go t ps)

/-- TLD (R306): the parts are read while the instruction is under way, behind a pending fence only once it has completed (R252). -/
def execTld (f : FormH) (s : State) : Host.Outcome State Fault Refusal :=
  issue (.tld f) (fun t => t.move f .read (fun t1 ps =>
    let e := t1.blk.handle (hOf f)
    let dfr := ps.any (fun p => pteD p.pte)
    if dfr && t1.blk.commit.isSome then .wait
    else
      let upd := rowsE t1
      let rows := ((List.range 64).zip (t1.blk.tileRows e)).map (fun x => if upd.contains x.1 then List.replicate e.stride 0 else x.2)
      t1.newVersion (.tld f) (hOf f) e.fmt e.acc e.rb rows true (ps.map MovePart.piece) dfr)) s

/-- TST (R306): complete once its rows are read and accepted by the memory path. -/
def execTst (f : FormH) (s : State) : Host.Outcome State Fault Refusal :=
  issue (.tst f) (fun t => t.move f .write (fun t1 ps =>
    let e := t1.blk.handle (hOf f)
    if t1.badTile e (rowsE t1) then .fault (flt 0x0E 0x00)
    else
      let img := (t1.blk.tileRows e).flatten
      let bytes (p : TilePiece) : List Byte := p.offs.flatMap (fun o => (img.drop o).take (p.size / p.offs.length))
      .ok (t1.pushStores (ps.map (fun p => (p.piece.loc, bytes p.piece))) none 0 0))) s

/-! ### TGETROW and TSETROW (R307) -/

/-- Row and word of register m, lane L of group q. -/
def octetWord (acc : Bool) (q m l : Nat) : Nat × Nat := if acc then (4 * q + m / 2, l + 32 * (m % 2)) else (8 * q + m, l)

/-- Step 6: the row group lies in the tile. -/
def octetOk (acc : Bool) (q : Word64) : Bool := q.toNat < (if acc then 16 else 8)

/-- TGETROW: stored words of eight registers' lanes; beyond the row they read as zero (R307). -/
def execTgetrow (f : FormH) (s : State) : Host.Outcome State Fault Refusal :=
  issue (.tgetrow f) (fun t =>
    let h := hOf f
    let e := t.blk.handle h
    let q := t.w.rs f.sa
    Res.after (do
      let _ ← t.checkHandles [h] [h]
      handleOk (octetOk e.acc q) 0x0D)
      (let at0 (m l : Nat) : Nat × Nat := octetWord e.acc q.toNat m l
       if t.badTile e ((List.range 8).map (fun m => (at0 m 0).1)) then .fault (flt 0x0E 0x00)
       else
        let rows := t.blk.tileRows e
        let limit := if e.fmt == 5 then 96 else e.rowBytes
        let word (m l : Nat) : Word32 :=
          let p := at0 m l
          if limit < 4 * p.2 + 4 then 0 else BitVec.ofNat 32 (leNat (((rows.getD p.1 []).drop (4 * p.2)).take 4))
        let d := 8 * (f.fn.extractLsb' 5 4).toNat
        .ok (t.setW ((List.range 8).foldl (fun w m => w.wvEach (d + m) (word m) t.effLanes) t.w)))) s

/-- TSETROW: a new version with the words of the lanes in E (R307). -/
def execTsetrow (f : FormH) (s : State) : Host.Outcome State Fault Refusal :=
  issue (.tsetrow f) (fun t =>
    let h := hOf f
    let e := t.blk.handle h
    let q := t.w.rs f.sa
    Res.after (do
      let _ ← t.checkHandles [h] [h]
      handleOk (octetOk e.acc q) 0x0D)
      (let d := 8 * (f.fn.extractLsb' 5 4).toNat
       let limit := if e.fmt == 5 then 96 else e.rowBytes
       let put (rows : List (List Byte)) (m l : Nat) : List (List Byte) :=
         let p := octetWord e.acc q.toNat m l
         if limit < 4 * p.2 + 4 then rows
         else rows.modify p.1 (fun r => r.take (4 * p.2) ++ leBytes 4 (t.w.rv (d + m) l).toNat ++ r.drop (4 * p.2 + 4))
       let rows := (List.range 8).foldl (fun rs m => t.effLanes.foldl (fun rs l => put rs m l) rs) (t.blk.tileRows e)
       t.newVersion (.tsetrow f) h e.fmt e.acc e.rb rows true [] false)) s

/-! ### Elementwise (R315, R316, R319) -/

/-- The flags tile arithmetic sets (R66, R73). -/
def tileFlags : FpFlags := flagIV ||| flagOF

/-- Whether two tiles have the same shape. -/
def sameShape (a b : HandleEntry) : Bool := a.acc == b.acc && a.rb == b.rb

/-- TZERO (R315). -/
def View.tzeroBody (t : View) (f : FormF) : Res :=
  Res.after (t.ownPre f) (t.writeRows (.tzero f) f.hd.toNat (fun _ r => List.replicate r.length 0))

/-- Steps 1 to 7 of TTRANS. -/
def View.ttransPre (t : View) (f : FormF) : Except FaultInfo Unit := do
  let h := f.hd.toNat
  let a := f.ha.toNat
  let ed := t.blk.handle h
  let ea := t.blk.handle a
  let _ ← t.checkHandles [h, a] [h, a]
  let _ ← handleOk ((ea.fmt == 1 || ea.fmt == 2) && ed.fmt == ea.fmt) 0x05
  handleOk (ed.k == 64 && ea.k == 64) 0x04

/-- TTRANS (R315). -/
def View.ttransBody (t : View) (f : FormF) : Res :=
  let ed := t.blk.handle f.hd.toNat
  let ea := t.blk.handle f.ha.toNat
  Res.after (t.ttransPre f)
    (if t.badTile ea (List.range 64) then .fault (flt 0x0E 0x00)
     else
      let m := t.blk.tileRaw ea true
      t.writeRows (.ttrans f) f.hd.toNat (fun i _ => packRow ed.fmt 128 (m.getD i [])))

/-- The formats of TADD and TMUL (R315). -/
def arithFmt (c : BitVec 4) : Bool := [0, 10, 1, 2, 3, 4].contains c.toNat

/-- One element of TADD or TMUL. -/
def tileArith (mul : Bool) (fmt : BitVec 4) (x y : Nat) : Flagged Nat :=
  match fmtOf fmt with
  | .flt F => if mul then F.mulBits x y else F.addBits x y
  | _ => .pure ((if mul then x * y else x + y) % 2 ^ 32)

/-- Steps 1 to 7 of TADD and TMUL: formats, shapes, transposed reads (R315). -/
def View.binaryPre (t : View) (f : FormF) : Except FaultInfo Unit := do
  let ed := t.blk.handle f.hd.toNat
  let ea := t.blk.handle f.ha.toNat
  let eb := t.blk.handle f.hb.toNat
  let hs := [f.hd.toNat, f.ha.toNat, f.hb.toNat]
  let _ ← t.checkHandles hs hs
  let _ ← handleOk (arithFmt ed.fmt && ea.fmt == ed.fmt && eb.fmt == ed.fmt) 0x05
  let _ ← handleOk (sameShape ed ea && sameShape ed eb) 0x04
  handleOk ((!f.mods.getLsbD 4 || ea.is16) && (!f.mods.getLsbD 3 || eb.is16)) 0x06

/-- TADD and TMUL on every element (R315). -/
def View.binaryBody (t : View) (f : FormF) (mul : Bool) : Res :=
  let ed := t.blk.handle f.hd.toNat
  let ea := t.blk.handle f.ha.toNat
  let eb := t.blk.handle f.hb.toNat
  let ta := f.mods.getLsbD 4
  let tb := f.mods.getLsbD 3
  Res.after (t.binaryPre f)
    (if t.badTile ea (if ta then List.range 64 else rowsE t) || t.badTile eb (if tb then List.range 64 else rowsE t) then .fault (flt 0x0E 0x00)
     else
      let xs := t.blk.tileRaw ea ta
      let ys := t.blk.tileRaw eb tb
      t.writeElems (if mul then .tmul f else .tadd f) f.hd.toNat tileFlags (fun i => ((xs.getD i []).zip (ys.getD i [])).map (fun p => tileArith mul ed.fmt p.1 p.2)))

/-- The value times 2^k. -/
def Num.shift (x : Num) (k : Int) : Num :=
  match x with
  | .fin n m e => .fin n m (e + k)
  | y => y

/-- TSCALE.p2 of a q4 row: exponents of the scale bytes move, clamped to 0 to 63 (R316). -/
def q4Rescale (k : Int) (bs : List Byte) : List Byte × FpFlags :=
  let step (x : Byte) : Byte × FpFlags :=
    let e : Int := (x.toNat % 64 : Nat) + k
    let c : Int := max 0 (min 63 e)
    (BitVec.ofNat 8 (x.toNat / 64 * 64 + c.toNat), flagIf (63 < e) flagOF ||| flagIf (e < 0) flagUF)
  let sc := ((bs.drop 64).take 32).map step
  (bs.take 64 ++ sc.map Prod.fst ++ List.replicate 32 0, sc.foldl (fun m x => m ||| x.2) 0)

/-- The five floating formats of TSCALE.row and .col. -/
def floatFmt (c : BitVec 4) : Bool := c.toNat ≤ 4

/-- Steps 1 to 7 of TSCALE, by its variant (R316). -/
def View.scalePre (t : View) (f : FormF) : Except FaultInfo Unit := do
  let h := f.hd.toNat
  let a := f.ha.toNat
  let b := f.hb.toNat
  let ed := t.blk.handle h
  let ea := t.blk.handle a
  let eb := t.blk.handle b
  if f.mods.getLsbD 4 then
    let _ ← t.checkHandles [h, a] [h, a]
    let _ ← handleOk (!ea.isInt && ed.fmt == ea.fmt) 0x05
    handleOk (sameShape ed ea) 0x04
  else if f.mods == 2 then t.ownPre f
  else
    let _ ← t.checkHandles [h, a, b] [h, a, b]
    let _ ← handleOk (floatFmt ed.fmt && ea.fmt == ed.fmt && eb.fmt == 0) 0x05
    handleOk (sameShape ed ea && eb.acc) 0x04

/-- TSCALE.p2 (R316). -/
def View.scaleP2 (t : View) (f : FormF) : Res :=
  let h := f.hd.toNat
  let ea := t.blk.handle f.ha.toNat
  let k : Int := (f.mods.extractLsb' 0 4).toInt
  if t.badTile ea (rowsE t) then .fault (flt 0x0E 0x00)
  else if ea.fmt == 5 then
    let rows := t.blk.tileRows ea
    let new (i : Nat) : List Byte × FpFlags := q4Rescale k (rows.getD i [])
    let fp := ((rowsE t).map (fun i => (new i).2)).foldl (· ||| ·) 0
    (t.setW (t.w.addFlags fp false)).writeRows (.tscale f) h (fun i _ => (new i).1)
  else
    match fmtOf ea.fmt with
    | .flt F =>
      let m := t.blk.tileVals ea false
      t.writeElems (.tscale f) h tileFlags (fun i => (m.getD i []).map (fun x => F.deliver (x.shift k)))
    | _ => .fault (flt 0x04 0x05)

/-- TSCALE.row and TSCALE.col (R316). -/
def View.scaleBy (t : View) (f : FormF) (col : Bool) : Res :=
  let h := f.hd.toNat
  let ed := t.blk.handle h
  let ea := t.blk.handle f.ha.toNat
  let eb := t.blk.handle f.hb.toNat
  if t.badTile ea (rowsE t) || t.badTile eb (if col then [0, 1] else [0]) then .fault (flt 0x0E 0x00)
  else
    match fmtOf ed.fmt with
    | .flt F =>
      let xs := t.blk.tileVals ea false
      let ys := t.blk.tileVals eb false
      let factor (i j : Nat) : Num :=
        if col then (ys.getD (j / 64) []).getD (j % 64) (.fin false 0 0) else (ys.getD 0 []).getD i (.fin false 0 0)
      t.writeElems (.tscale f) h tileFlags (fun i =>
        let r := xs.getD i []
        ((List.range r.length).zip r).map (fun p => F.result (p.2.mul (factor i p.1))))
    | _ => .fault (flt 0x04 0x05)

/-- TSCALE (R316); .rx sets the read exponent. -/
def View.tscaleBody (t : View) (f : FormF) : Res :=
  Res.after (t.scalePre f)
    (if f.mods.getLsbD 4 then t.scaleP2 f
     else if f.mods == 2 then
      let h := f.hd.toNat
      .ok { t with blk := t.blk.setHandle h { t.blk.handle h with rx := f.hb.toInt } }
     else t.scaleBy f (f.mods == 1))

/-- The exact sum of terms with the special values of R66: NaN with IV for opposite infinities or an invalid product;
a NaN; an infinity; else the finite sum. -/
def sumTerms (terms : List Exact) : Num × Bool :=
  let xs := terms.map Prod.fst
  let pos := xs.any (fun x => x == .inf false)
  let neg := xs.any (fun x => x == .inf true)
  if terms.any Prod.snd || (pos && neg) then (.nan false, true)
  else if xs.any Num.isNan then (.nan false, xs.any Num.snan)
  else if pos then (.inf false, false)
  else if neg then (.inf true, false)
  else
    match xs with
    | [] => (.fin false 0 0, false)
    | x :: r => (r.foldl (fun a y => (a.add y).1) x, false)

/-- A sum rounded once to FP32, with IV and OF (R64, R66). -/
def roundSum (x : Num × Bool) : Flagged Nat :=
  let r := fmtF32.deliver x.1
  { r with fp := (r.fp &&& flagOF) ||| flagIf x.2 flagIV }

/-- FMAX or FMIN over a row in ascending order (R71, R319). -/
def reduceMax (mx : Bool) (xs : List Num) : Flagged Nat :=
  let bits := xs.map (fun x => (fmtF32.deliver x).val)
  match bits with
  | [] => .pure 0
  | b :: r => { val := r.foldl (fun a y => (fmtF32.minMax mx a y).val) b, fp := flagIf (xs.any Num.snan) flagIV, sat := false }

/-- The greatest magnitude of a row; the canonical NaN when there is a NaN (R319). -/
def absMax (xs : List Num) : Flagged Nat :=
  let mag (x : Num) : Nat := (fmtF32.deliver x).val % 2 ^ 31
  if xs.any Num.isNan then { val := fmtF32.nan, fp := flagIf (xs.any Num.snan) flagIV, sat := false }
  else .pure ((xs.map mag).foldl max 0)

/-- TRED and TABSMAX: `f` reduces a row, `fill` says that its value goes to every column (R319). -/
def View.reduceTile (t : View) (i : Instr) (f : FormF) (tr fill : Bool) (red : List Num → Flagged Nat) : Res :=
  let h := f.hd.toNat
  let a := f.ha.toNat
  let ed := t.blk.handle h
  let ea := t.blk.handle a
  Res.after (do
    let _ ← t.checkHandles [h, a] [h, a]
    let _ ← handleOk (!ea.isInt && ed.fmt == 0) 0x05
    let _ ← handleOk ed.acc 0x04
    handleOk (!tr || ea.is16) 0x06)
    (if t.badTile ea (if tr then List.range 64 else rowsE t) then .fault (flt 0x0E 0x00)
     else
      let m := t.blk.tileVals ea tr
      t.writeElems i h tileFlags (fun n =>
        let r := red (m.getD n [])
        r :: List.replicate 63 (if fill then r else .pure 0)))

/-- TRED (R319). -/
def execTred (f : FormF) (s : State) : Host.Outcome State Fault Refusal :=
  issue (.tred f) (fun t =>
    let red (xs : List Num) : Flagged Nat :=
      if f.mods.extractLsb' 0 2 == 0 then roundSum (sumTerms (xs.map (fun x => (x, false)))) else reduceMax (f.mods.getLsbD 0) xs
    t.reduceTile (.tred f) f (f.mods.getLsbD 4) false red) s
/-- TABSMAX (R319). -/
def execTabsmax (f : FormF) (s : State) : Host.Outcome State Fault Refusal :=
  issue (.tabsmax f) (fun t => t.reduceTile (.tabsmax f) f false true absMax) s

/-! ### TCVT and TQUANT (R317, R318) -/

/-- Reads and checks a tensor parameter record as XCVT does (R197, R60). -/
def View.readParam (t : View) (va : Addr) (ok : List Nat) (k : View → Param → Res) : Res :=
  if va.toNat % 32 != 0 then .fault ((flt 0x0A 0x00).at va)
  else (t.readVa va 32).then (fun t1 bs => if !Param.legal bs ok then .fault (flt 0x02 0x05) else k t1 (Param.ofBytes bs))

/-- The shape after TCVT: accumulator and RB, when the target format has one (R297, R317). -/
def cvtShape (k : Nat) (fmt : BitVec 4) : Option (Bool × Nat) :=
  let n := k * fmtBits fmt / 8
  if fmt == 0 then (if k = 64 then some (true, 0) else none)
  else if n % 16 == 0 && 16 ≤ n && n ≤ 128 then some (false, n / 16 - 1) else none

/-- TCVT (R317). -/
def execTcvt (f : FormH) (s : State) : Host.Outcome State Fault Refusal :=
  issue (.tcvt f) (fun t =>
    let h := hOf f
    let e := t.blk.handle h
    Res.after (t.checkHandles [h] [h]) (t.readParam (t.w.rs f.sa) [0, 1, 2, 3, 4, 6, 7] (fun t1 p =>
      match cvtShape e.k p.fmt with
      | none => .fault (flt 0x04 0x04)
      | some (acc, rb) =>
        if t1.badTile e (rowsE t1) then .fault (flt 0x0E 0x00)
        else
          let m := t1.blk.tileVals e false
          let row (i : Nat) : List (Flagged Nat) := ((List.range e.k).zip (m.getD i [])).map (fun x => p.narrow x.2 (e.k * i + x.1))
          let all := (rowsE t1).map (fun i => (i, row i))
          let get (i : Nat) : List (Flagged Nat) := ((all.find? (fun x => x.1 == i)).map Prod.snd).getD []
          let fp := (all.map (fun x => flagsOf x.2)).foldl (· ||| ·) 0
          (t1.setW (t1.w.addFlags fp (all.any (fun x => satOf x.2)))).writeConverted (.tcvt f) h p.fmt acc rb
            (fun i => packRow p.fmt (if acc then 256 else 128) ((get i).map Flagged.val))))) s

/-- TQUANT (R318). -/
def execTquant (f : FormH) (s : State) : Host.Outcome State Fault Refusal :=
  issue (.tquant f) (fun t =>
    let h := hOf f
    let pair := f.fn.getLsbD 5
    let hs := if pair then [h, h + 1] else [h]
    let e := t.blk.handle h
    let e1 := t.blk.handle (h + 1)
    Res.after (do
      let _ ← t.checkHandles hs hs
      handleOk (if pair then e.k == 64 && e1.k == 64 else e.k == 128) 0x04)
      (t.readParam (t.w.rs f.sa) [5] (fun t1 p =>
        if t1.badTile e (rowsE t1) || (pair && t1.badTile e1 (rowsE t1)) then .fault (flt 0x0E 0x00)
        else
          let lo := t1.blk.tileVals e false
          let hi := if pair then t1.blk.tileVals e1 false else []
          let vals (i : Nat) : List Num := lo.getD i [] ++ hi.getD i []
          let row (i : Nat) : List (Flagged Nat) := (List.range 32).map (fun b =>
            p.encodeQ4 (((vals i).drop (4 * b)).take 4) ((List.range 4).map (fun m => 128 * i + 4 * b + m)))
          let all := (rowsE t1).map (fun i => (i, row i))
          let get (i : Nat) : List Nat := ((all.find? (fun x => x.1 == i)).map (fun x => x.2.map Flagged.val)).getD []
          let fp := (all.map (fun x => flagsOf x.2)).foldl (· ||| ·) 0
          let t2 := t1.setW (t1.w.addFlags fp false)
          let bytes (i : Nat) : List Byte :=
            (get i).flatMap (fun x => leBytes 2 x) ++ (get i).map (fun x => BitVec.ofNat 8 (x / 2 ^ 16)) ++ List.replicate 32 0
          match t2.writeConverted (.tquant f) h 5 false 7 bytes with
          | .ok t3 => .ok (if pair then t3.freeHandle (h + 1) else t3)
          | r => r))) s

/-! ### TDRAIN (R320, R376) -/

/-- Drains that hold the core's streaming buffer: tentative captures and confirmed ones not yet answered (R320). -/
def View.drains (t : View) : List Nat :=
  addAll [] ((t.blk.setWarp t.w).warps.flatMap (fun w => w.pushes.filterMap Push.drain) ++
    (t.dev.requests.filter (fun r => r.core == t.core && r.saved.isNone)).filterMap FabricReq.drain)

/-- Drains tentative in the issuing warp. -/
def View.ownDrains (t : View) : List Nat := addAll [] (t.w.pushes.filterMap Push.drain)

/-- The leaf of a byte of a drained row: in the pod aperture, of the kind of the mode (R320, R353). -/
def View.drainLeaf (t : View) (push : Bool) (lane : Nat) (va : Addr) : Except FaultInfo Leaf := do
  let l := t.blk.launch
  let lf ← t.dev.laneWalk l.ctx .write lane va
  let _ ← faultLane lane (require (physRegion lf.pa == .aperture) ((flt 0x09 0x07).at va))
  let _ ← faultLane lane (pageCheck .write false push l.sys va lf)
  Except.ok lf

/-- The bytes of a row cut where pages meet: offset and bytes. -/
def cutRow (va : Addr) (bs : List Byte) : List (Nat × List Byte) :=
  let n := 65536 - va.toNat % 65536
  if bs.length ≤ n then [(0, bs)] else [(0, bs.take n), (n, bs.drop n)]

/-- TDRAIN: checks, conversion and capture; its packets are pushes of the warp (R320, R376). Its record and memory checks follow those
of its handle (R299), in which order is not stated: the alignment of s(sd), then the record, then the translation of the rows, whose
faults are the instruction's (log entry 43). -/
def execTdrain (f : FormH) (s : State) : Host.Outcome State Fault Refusal :=
  issue (.tdrain f) (fun t =>
    let h := hOf f
    let e := t.blk.handle h
    let push := f.fn.getLsbD 5
    let base := t.w.rs f.sd
    Res.after (do
      let _ ← t.checkHandles [h] [h]
      let _ ← handleOk e.acc 0x04
      require (base.toNat % 16 == 0) ((flt 0x0A 0x00).at base))
      (t.readParam (t.w.rs f.sa) (if push then [0, 2] else [0, 1, 2, 3, 4, 6]) (fun t1 p =>
        let eb := fmtBits p.fmt / 8
        let va (i : Nat) : Addr := base + BitVec.ofNat 64 (64 * i * eb)
        let m := t1.blk.tileVals e false
        let bytes (i : Nat) : List Byte :=
          ((List.range 64).zip (m.getD i [])).flatMap (fun x => leBytes eb (p.narrow x.2 (64 * i + x.1)).val)
        let parts := (rowsE t1).flatMap (fun i => (cutRow (va i) (bytes i)).map (fun c => (i, va i + BitVec.ofNat 64 c.1, c.2)))
        match eachLane (fun (q : Nat × Addr × List Byte) =>
            (t1.drainLeaf push (q.1 / 2) q.2.1).map (fun lf => (q.1, lf, q.2.2))) parts with
        | .error x => .fault { x with kind := 1 }
        | .ok rows =>
          let ctx := t1.blk.launch.ctx
          let g : BitVec 8 := (t1.w.rs f.sb).extractLsb' 0 8
          if push && (t1.dev.groupEntry ctx g).isNone then .fault ((flt 0x09 0x09).onLane t1.lowLane)
          else if t1.badTile e (rowsE t1) then .fault (flt 0x0E 0x00)
          else if 4 ≤ t1.drains.length then (if 4 ≤ t1.ownDrains.length then .fault (flt 0x05 0x03) else .wait)
          else if t1.w.fence.isSome then .wait
          else
            let id := t1.dev.nextIdent
            let pkts (i : Nat) : List Push :=
              let mine := rows.filter (fun r => r.1 == i)
              if push then
                t1.dev.contribPackets ctx p.fmt false (mine.flatMap (fun r =>
                  (List.range (r.2.2.length / 4)).map (fun k =>
                    (withGrp (r.2.1.pa + 4 * k) g, BitVec.ofNat 32 (leNat ((r.2.2.drop (4 * k)).take 4)))))) (some id) t1.fabSrc
              else rowPackets (mine.map (fun r => (r.2.1.pa, r.2.2))) id t1.fabSrc
                (addAll [] ((rows.filter (fun r => pteD r.2.1.pte)).map (fun r => r.2.1.pa / 65536)))
            .ok { t1 with
              dev := { t1.dev.touchAll (some t1.core) ctx ((addAll [] (parts.map (fun q => q.2.1))).map (fun va => (va, []))) with
                nextIdent := t1.dev.nextIdent + 1 }
              w := { t1.w with seq := t1.w.seq + 1, pushes := t1.w.pushes ++ (rowsE t1).flatMap pkts } }))) s

/-! ### Completion (R305) -/

/-- Puts the bytes of a part into a tile's image. -/
def putPiece (img : Cells 8) (p : TilePiece) (bs : List Byte) : Cells 8 :=
  let n := p.size / p.offs.length
  ((List.range p.offs.length).zip p.offs).foldl (fun m x => Cells.setMany m x.2 ((bs.drop (n * x.1)).take n)) img

/-- Reads a part of a TLD; bytes of another device are free, and the request may fail (R373, log entry 5). -/
def State.readPiece (s : State) (core w : Nat) (p : TilePiece) : Except FaultInfo (List Byte) :=
  match p.loc with
  | .remote _ _ =>
    if Config.pick s.tick [50, p.offs.headD 0] % 2 == 0 then .error (flt 0x0E 0x03)
    else .ok (leBytes p.size (Config.pick s.tick [51, p.offs.headD 0]))
  | loc => s.readLoc core w loc p.size

/-- Reads the parts that `take` selects, each after what must come before it: an earlier access of the warp to its bytes (R241), and
a lower part of the same bytes (R240). A part that meets an error stays as such. -/
def readPieces (core : Nat) (w : Warp) (seq : Nat) (take : Nat → Bool) :
    List TilePiece → Nat → List (Loc × Nat) → Cells 8 → State → State × Cells 8 × List TilePiece
  | [], _, _, img, s => (s, img, [])
  | p :: r, k, left, img, s =>
    if p.loc.pending && take k && !s.accessHeld core w seq p.loc p.size && !left.any (fun q => q.1.overlaps q.2 p.loc p.size) then
      let s1 := s.visit false p.loc p.size
      match s1.readPiece core w.num p with
      | .error f =>
        let q := readPieces core w seq take r (k + 1) left img s1
        (q.1, q.2.1, { p with loc := .bad f.detail } :: q.2.2)
      | .ok bs => readPieces core w seq take r (k + 1) left (putPiece img p bs) s1
    else
      let q := readPieces core w seq take r (k + 1) (if p.loc.pending then (p.loc, p.size) :: left else left) img s
      (q.1, q.2.1, p :: q.2.2)

/-- Writes the image of a version to its slot or slot pair; the instruction is complete (R219, R305). -/
def View.putVersion (t : View) (o : Op) (slot : Nat) (acc : Bool) (img : Cells 8) : View :=
  { t with
    blk := { t.blk with slots := Cells.splice t.blk.slots (8192 * slot) (8192 * (slot + (if acc then 2 else 1))) img }
    w := t.w.dropOp o.seq }

/-- The fault of the lowest lane of a TLD that met an error, once every other part has been read (R266, R306). -/
def pieceFault (pc : Addr) (ps : List TilePiece) : FaultInfo :=
  (laneFault pc 0 (ps.map (fun p => { lane := p.lane, va := p.va, loc := p.loc }))).getD (flt 0x0E 0x01)

/-- A TLD reads some of its parts, and with none left its version is written (R305, R306). -/
def View.tileStep (t : View) (o : Op) (slot : Nat) (acc : Bool) (img : Cells 8) (todo : List TilePiece) (dfr : Bool) : State :=
  if todo.isEmpty then (t.putVersion o slot acc img).close
  else if todo.all (fun p => !p.loc.pending) then t.raise (pieceFault o.pc todo)
  else if t.w.behindFence o.seq then t.close
  else
    let take := freeLanes t.dev [52]
    let now (x : Nat × TilePiece) : Bool := take x.1 && x.2.loc.pending && !t.dev.accessHeld t.core t.w o.seq x.2.loc x.2.size
    let hdrs := headersOf ((((List.range todo.length).zip todo).filter now).map (fun x => x.2.loc))
    let r := readPieces t.core t.w o.seq take (todo.map (fun p => { p with loc := p.loc.withHeader t.dev hdrs })) 0 [] img t.dev
    { t with dev := r.1, w := t.w.setOp { o with body := .tile slot acc r.2.1 r.2.2 dfr } }.close

end Sys2Proof.Machine
end

