-- ==== Sys2Proof/Machine/TileArray.lean ====
section
/-!
DEFINITION. The matrix array: weight planes and matrix steps (spec 12 R308 to R314; spec 03 R63 to R67; spec 04
R93).
-/
namespace Sys2Proof.Machine

/-! ### Planes (R308) -/

/-- Replaces the shadow plane. -/
def ArrayRec.setShadow (a : ArrayRec) (p : Plane) : ArrayRec := if a.act then { a with p0 := p } else { a with p1 := p }

/-- Number of the active plane, and of the shadow. -/
def ArrayRec.activeNo (a : ArrayRec) : Nat := if a.act then 1 else 0

/-- Only the owner may load and swap; without one the issuing warp becomes it (R308). -/
def ArrayRec.ownerOk (a : ArrayRec) (n : Nat) : Bool := !a.ownv || a.ownw == n

/-- W[k][j], by column j (R309): element (j, k) of the loaded image, or element (k, j) of one loaded transposed. -/
def Plane.columns (p : Plane) : List (List Num) :=
  let rows := (rowsOf p.img 0 128 64).map (valRow p.fmt p.k)
  if p.t then Sys2Proof.Machine.columns 64 (.fin false 0 0) rows else rows

/-- W[k][j] as stored integers. -/
def Plane.intColumns (p : Plane) : List (List Nat) := (rowsOf p.img 0 128 64).map (rawRow p.fmt p.k)

/-- The warp in view becomes the array's owner, if there is none (R308): its rollback will restore what the array holds now, and
no earlier owner's will any more (R314). -/
def View.own (t : View) : View :=
  let a := t.blk.array
  if a.ownv then t
  else
    { t with
      blk := { t.blk with
        array := { a with ownv := true, ownw := t.w.num }
        warps := t.blk.warps.map (fun w => if w.num == t.w.num then w else { w with ckpt := { w.ckpt with array := none, planes := none } }) }
      w := if t.w.ckpt.array.isSome then t.w else { t.w with ckpt := { t.w.ckpt with planes := t.w.ckpt.planes.orElse (fun _ => some a) } } }

/-- TLDW: the shadow plane takes the weights of a tile (R309). -/
def execTldw (f : FormF) (s : State) : Host.Outcome State Fault Refusal :=
  issue (.tldw f) (fun t =>
    let h := f.ha.toNat
    let e := t.blk.handle h
    let ta := f.mods.getLsbD 4
    let a := t.blk.array
    Res.after (do
      let _ ← t.checkHandles [h] [h]
      let _ ← handleOk (!e.acc) 0x05
      let _ ← handleOk (e.k == 64 || e.k == 128) 0x04
      let _ ← handleOk (!ta || e.is16) 0x06
      handleOk (a.ownerOk t.w.num) 0x08)
      (if t.badTile e (List.range 64) then .fault (flt 0x0E 0x00)
       else
        let img := Cells.ofList 0 (t.blk.tileRows e).flatten
        let p : Plane := { valid := true, fmt := e.fmt, rxw := e.rx, t := ta, src := h, stale := false, k := e.k, fromSlot := e.slot, saved := false, img := img }
        let d : State := { t.dev with bad := t.dev.bad.filter (fun x => x != .plane t.core (1 - a.activeNo)) }
        let t1 := t.own
        .ok { t1 with dev := d, blk := { t1.blk with array := t1.blk.array.setShadow p } })) s

/-- A chain that the block has issued has still to reach the active plane (R310, R313). -/
def View.chainDue (t : View) : Bool :=
  (t.blk.setWarp t.w).warps.any (fun w => w.ops.any (fun o =>
    match o.body with
    | .chain _ left _ _ _ _ => left != 0
    | _ => false))

/-- TSWAP: once every step accepted on the active plane has finished, the planes are exchanged; .rel gives up ownership (R310). -/
def execTswap (f : FormF) (s : State) : Host.Outcome State Fault Refusal :=
  issue (.tswap f) (fun t =>
    let a := t.blk.array
    Res.after (do
      let _ ← handleOk (a.ownerOk t.w.num) 0x08
      handleOk a.shadow.valid 0x07)
      (if t.chainDue then .wait
       else
        let t1 := t.own
        .ok { t1 with blk := { t1.blk with array := { a with act := !a.act, ownv := !f.mods.getLsbD 0, ownw := if f.mods.getLsbD 0 then 0 else t.w.num } } })) s

/-! ### Steps (R63 to R66, R311) -/

/-- The stream format of SF (R93). -/
def streamFmt (sf : BitVec 3) : BitVec 4 :=
  match sf.toNat with
  | 0 => 2 | 1 => 1 | 2 => 3 | 3 => 4 | 4 => 5 | 5 => 6 | 6 => 7 | _ => 15

/-- The kinds of operand formats: 8-bit, and 16-bit. -/
def is8 (c : BitVec 4) : Bool := c == 3 || c == 4 || c == 6 || c == 7
def is16Fmt (c : BitVec 4) : Bool := c == 1 || c == 2
def intFmt (c : BitVec 4) : Bool := c == 6 || c == 7

/-- The accumulator format a pair of operand formats needs: i32 for integers, f32 for floating ones; none for a mixed
pair (R64). -/
def accFmt (a w : BitVec 4) : Option (BitVec 4) :=
  if intFmt a && intFmt w then some 10 else if intFmt a || intFmt w then none else some 0

/-- How an activation of K = ka goes through weights of K = kw: number of steps and whether it takes a pair of handles
(R311). R63 gives 8-bit activations against q4 weights a slice of 128 elements, and the table of R311 gives a pair of K = 64 two steps:
two steps of 64 elements are taken, each rounded (log entry 42). -/
def stepPlan (fa fw : BitVec 4) (ka kw : Nat) : Option (Nat × Bool) :=
  if ka == kw && (kw == 64 || kw == 128) then some (if is8 fa && is8 fw && kw == 128 then 2 else 1, false)
  else if ka == 64 && kw == 128 then some (2, true)
  else none

/-- Truncates a term to a multiple of 2^q in magnitude (R65). -/
def truncTo (q : Int) (x : Num) : Num :=
  match x with
  | .fin n m e => if q ≤ e then x else .fin n (m >>> (q - e).toNat) q
  | y => y

/-- floor(log2) of the largest finite nonzero term. -/
def topExp (xs : List Num) : Option Int :=
  xs.foldl (fun p x =>
    match x with
    | .fin _ m e => if m = 0 then p else some (match p with
      | none => (m.log2 : Int) + e
      | some v => max v ((m.log2 : Int) + e))
    | _ => p) none

/-- One step of the array on an element: the terms summed exactly, or with R65's truncation for a 16-bit operand, and
rounded once (R64, R65, R66). -/
def stepSum (trunc : Bool) (terms : List Exact) : Flagged Nat :=
  let ts := if trunc then
      match topExp (terms.map Prod.fst) with
      | none => terms
      | some p => terms.map (fun x => (truncTo (p - 48) x.1, x.2))
    else terms
  roundSum (sumTerms ts)

/-- The exact products of a slice, with the read exponents (R311). -/
def products (rx rxw : Int) (as ws : List Num) : List Exact :=
  (as.zip ws).map (fun p => let x := p.1.mul p.2; (x.1.shift (rx + rxw), x.2))

/-- The part of a list that step s of S takes. -/
def sliceOf {α : Type} (S s : Nat) (xs : List α) : List α := if S = 2 then (xs.drop (64 * s)).take 64 else xs

/-- A signed or natural stored integer. -/
def intOf (fmt : BitVec 4) (x : Nat) : Int := if fmt == 6 then (BitVec.ofNat 8 x).toInt else x

/-- An i32 accumulator after adding an exact sum; it saturates once (R64). -/
def satAdd (acc : Nat) (x : Int) : Flagged Nat :=
  let y := (BitVec.ofNat 32 acc).toInt + x
  let z := max (-(2 ^ 31)) (min (2 ^ 31 - 1) y)
  { val := (BitVec.ofInt 32 z).toNat, fp := 0, sat := z != y }

/-- Adds a step's flags. -/
def Flagged.with (a b : Flagged Nat) : Flagged Nat := { b with fp := a.fp ||| b.fp, sat := a.sat || b.sat }

/-- One element: the steps of an activation row (the row of the s-th handle in pair mode) through a weight column, from
`acc` on; without one, the slice value of a chain rank (R311, R67). -/
def elementSteps (fa fw : BitVec 4) (rxs : List Int) (rxw : Int) (S : Nat) (pair : Bool) (rows : List (List Num)) (col : List Num)
    (acc : Option Nat) : Flagged Nat :=
  let trunc := is16Fmt fa || is16Fmt fw
  let one (s : Nat) (a : Option (Flagged Nat)) : Flagged Nat :=
    let r := if pair then rows.getD s [] else sliceOf S s (rows.getD 0 [])
    let ps := products (rxs.getD (if pair then s else 0) 0) rxw r (sliceOf S s col)
    match a with
    | none => stepSum trunc ps
    | some x => x.with (stepSum trunc ((fmtF32.read x.val, false) :: ps))
  let first := one 0 (acc.map Flagged.pure)
  if S = 2 then one 1 (some first) else first

/-- The same for integers: the exact sum of a slice's products. -/
def intSlice (fa fw : BitVec 4) (row col : List Nat) : Int := ((row.zip col).map (fun p => intOf fa p.1 * intOf fw p.2)).sum

/-- The integer steps of an element. -/
def elementInts (fa fw : BitVec 4) (S : Nat) (pair : Bool) (rows : List (List Nat)) (col : List Nat) (acc : Nat) : Flagged Nat :=
  let one (s : Nat) (a : Flagged Nat) : Flagged Nat :=
    let r := if pair then rows.getD s [] else sliceOf S s (rows.getD 0 [])
    a.with (satAdd a.val (intSlice fa fw r (sliceOf S s col)))
  let first := one 0 (.pure acc)
  if S = 2 then one 1 first else first

/-- The limiter withholds the matrix arrays of a core's wing, for 48 of every 64 cycles (R459). -/
def State.arrayWithheld (s : State) (core : Nat) : Bool := s.service.withheld.contains (core / 40) && s.clock.toNat % 64 < 48

/-- Adds array steps to counter 7 (R426). -/
def Block.countSteps (b : Block) (n : Nat) : Block := { b with counters := Cells.set b.counters 7 (Cells.get b.counters 7 + BitVec.ofNat 64 n) }

/-- Steps 1 to 7 of TMMA (R299, R311, R312). -/
def View.tmmaPre (t : View) (f : FormF) : Except FaultInfo Unit := do
  let hd := f.hd.toNat
  let ha := f.ha.toNat
  let ed := t.blk.handle hd
  let ea := t.blk.handle ha
  let eb := t.blk.handle (ha + 1)
  let p := t.blk.array.active
  let pair := t.blk.pairMode f
  let acts := if pair then [ha, ha + 1] else [ha]
  let sf := streamFmt (f.mods.extractLsb' 0 3)
  let _ ← t.checkHandles ([hd, ha, f.hb.toNat] ++ acts.drop 1) ([hd] ++ acts)
  let _ ← handleOk (ea.fmt == sf && (!pair || eb.fmt == sf) && (!p.valid || ((accFmt ea.fmt p.fmt).isSome && (!ed.acc || accFmt ea.fmt p.fmt == some ed.fmt)))) 0x05
  let _ ← handleOk (ed.acc && !ea.acc && (!p.valid || ((stepPlan ea.fmt p.fmt ea.k p.k).isSome &&
    (!pair || (ha % 2 == 0 && !eb.acc && eb.k == 64))))) 0x04
  handleOk (!f.mods.getLsbD 4 || (ea.is16 && (!pair || eb.is16))) 0x06

/-- TMMA (R311, R312). With `x` every A tile is read with that exponent instead of its RX (R400). -/
def View.tmmaBody (t : View) (x : Option Int) (f : FormF) : Res :=
  let hd := f.hd.toNat
  let ed := t.blk.handle hd
  let ea := t.blk.handle f.ha.toNat
  let eb := t.blk.handle (f.ha.toNat + 1)
  let p := t.blk.array.active
  let ta := f.mods.getLsbD 4
  let pair := t.blk.pairMode f
  Res.after (do
    let _ ← t.tmmaPre f
    handleOk (p.valid && f.hb.toNat == p.src && !p.stale && f.mods.getLsbD 3 == p.t) 0x07)
    (let need := if ta then List.range 64 else rowsE t
     if t.badTile ea need || (pair && t.badTile eb need) || t.badTile ed (rowsE t) || t.dev.bad.contains (.plane t.core t.blk.array.activeNo)
     then .fault (flt 0x0E 0x00)
     else if t.dev.arrayWithheld t.core then .wait
     else
      let S := ((stepPlan ea.fmt p.fmt ea.k p.k).getD (1, false)).1
      let old := t.blk.tileRaw ed false
      let t1 : View := { t with blk := t.blk.countSteps S }
      let es := if pair then [ea, eb] else [ea]
      if intFmt ea.fmt then
        let as := es.map (fun e => t.blk.tileRaw e ta)
        let ws := p.intColumns
        t1.writeElems (.tmma f) hd tileFlags (fun i =>
          ((old.getD i []).zip ws).map (fun q => elementInts ea.fmt p.fmt S pair (as.map (fun m => m.getD i [])) q.2 q.1))
      else
        let as := es.map (fun e => t.blk.tileVals e ta)
        let ws := p.columns
        let rxs := es.map (fun e => x.getD e.rx)
        t1.writeElems (.tmma f) hd tileFlags (fun i =>
          ((old.getD i []).zip ws).map (fun q =>
            elementSteps ea.fmt p.fmt rxs p.rxw S pair (as.map (fun m => m.getD i [])) q.2 (some q.1))))

/-! ### The chain (R313, R67) -/

/-- The array of gang rank r, with its core. -/
def View.rankArray (t : View) (r : Nat) : Option (Nat × ArrayRec) :=
  if r = t.blk.launch.rank then some (t.core, t.blk.array)
  else (t.dev.gangPeer t.core t.blk r).map (fun b => (gangCore t.blk.launch t.core r, b.array))

/-- One element of a chain's accumulator after the step of a rank: the rank's slice value, rounded once, is added
and the sum rounded once; the integers of a rank are added exactly and saturate once (R313, R67; log entry 42). -/
def chainElement (sf : BitVec 4) (ea : HandleEntry) (p : Plane) (nums : List Num × List Num) (ints : List Nat × List Nat) (acc : Nat) : Flagged Nat :=
  if intFmt sf then satAdd acc (intSlice sf p.fmt ints.1 ints.2)
  else
    let v := elementSteps sf p.fmt [ea.rx] p.rxw 1 false [nums.1] nums.2 none
    let sum := roundSum (sumTerms [(fmtF32.read acc, false), (fmtF32.read v.val, false)])
    { sum with fp := v.fp ||| sum.fp }

/-- The step of rank `r` of a chain: the plane that is active there now is applied to activation tile ha + r (R313). A plane that
has come to fit the chain no more gives elements of no stated value, which are free (log entry 72). -/
def View.chainStep (t : View) (f : FormF) (r : Nat) (p : Plane) (rows : List (Nat × List Nat)) : List (Nat × List (Flagged Nat)) :=
  let sf := streamFmt (f.mods.extractLsb' 0 3)
  let ta := f.mods.getLsbD 4
  let ed := t.blk.handle f.hd.toNat
  let ea := t.blk.handle (f.ha.toNat + r)
  if !p.valid || p.k != ea.k || accFmt sf p.fmt != some ed.fmt then
    rows.map (fun x => (x.1, (List.range 64).map (fun j => .pure (Config.pick t.dev.tick [73, r, x.1, j] % 2 ^ 32))))
  else
    let nums := t.blk.tileVals ea ta
    let ints := t.blk.tileRaw ea ta
    let nc := p.columns
    let ic := p.intColumns
    rows.map (fun x => (x.1, ((List.range 64).zip x.2).map (fun y =>
      chainElement sf ea p (nums.getD x.1 [], nc.getD y.1 []) (ints.getD x.1 [], ic.getD y.1 []) y.2)))

/-- TMMAC: the chain's checks; its steps, from the highest rank to rank 0, follow one at a time (R313, R67). -/
def execTmmac (f : FormF) (s : State) : Host.Outcome State Fault Refusal :=
  issue (.tmmac f) (fun t =>
    let hd := f.hd.toNat
    let ha := f.ha.toNat
    let c := (f.hb.extractLsb' 0 3).toNat + 1
    let ranks := List.range c
    let hs := ranks.map (fun r => ha + r)
    let ed := t.blk.handle hd
    let es := hs.map t.blk.handle
    let ea := t.blk.handle ha
    let ta := f.mods.getLsbD 4
    let sf := streamFmt (f.mods.extractLsb' 0 3)
    let arrs := ranks.map t.rankArray
    let planes := arrs.filterMap (fun a => a.map (fun x => x.2.active))
    Res.after (do
      let _ ← handleOk (ha + c ≤ 32) 0x0A
      let _ ← t.checkHandles (hd :: hs) (hd :: hs)
      let _ ← handleOk (es.all (fun e => e.fmt == sf) &&
        planes.all (fun p => !p.valid || ((accFmt sf p.fmt).isSome && (!ed.acc || accFmt sf p.fmt == some ed.fmt)))) 0x05
      let _ ← handleOk (ed.acc && es.all (fun e => !e.acc && sameShape e ea) && planes.all (fun p => !p.valid || p.k == ea.k)) 0x04
      let _ ← handleOk (!ta || es.all HandleEntry.is16) 0x06
      let _ ← handleOk (t.blk.launch.rank == 0 && c ≤ t.blk.launch.gsize && arrs.all Option.isSome) 0x09
      handleOk (planes.all Plane.valid) 0x07)
      (let need := if ta then List.range 64 else rowsE t
       let badPlane := (arrs.filterMap id).any (fun a => t.dev.bad.contains (.plane a.1 a.2.activeNo))
       if es.any (fun e => t.badTile e need) || t.badTile ed (rowsE t) || badPlane then .fault (flt 0x0E 0x00)
       else if t.dev.arrayWithheld t.core then .wait
       else
        let steps (p : Plane) : Nat := ((stepPlan sf p.fmt ea.k p.k).getD (1, false)).1
        let old := t.blk.tileRaw ed false
        let t1 : View := { t with blk := t.blk.countSteps ((planes.map steps).sum) }
        t1.startVersion (.tmmac f) hd ed.fmt ed.acc ed.rb true (fun k =>
          .chain k c ((rowsE t).map (fun i => (i, old.getD i []))) (Cells.ofList 0 (t.blk.tileRows ed).flatten) 0 false))) s

/-- The next step of a chain, unless the limiter withholds the rank's array (R459), or the writing of its accumulator's version when
every rank has taken its step (R313). -/
def View.chainNext (t : View) (o : Op) (slot left : Nat) (rows : List (Nat × List Nat)) (img : Cells 8) (flags : Word32) (sat : Bool) : State :=
  match o.instr with
  | .tmmac f =>
    match left with
    | 0 =>
      let m := rows.foldl (fun m x => Cells.setMany m (256 * x.1) (x.2.flatMap (fun v => leBytes 4 v))) img
      ((t.setW (t.w.addFlags (flags &&& tileFlags) sat)).putVersion o slot true m).close
    | r + 1 =>
      match t.rankArray r with
      | none => t.close
      | some (core, a) =>
        if t.dev.arrayWithheld core then t.close
        else if t.dev.bad.contains (.plane core a.activeNo) then t.raise { flt 0x0E 0x00 with addr := some o.pc }
        else
          let xs := t.chainStep f r a.active rows
          let fp := (xs.map (fun x => flagsOf x.2)).foldl (· ||| ·) flags
          (t.setW (t.w.setOp { o with
            body := .chain slot r (xs.map (fun x => (x.1, x.2.map Flagged.val))) img fp (sat || xs.any (fun x => satOf x.2)) })).close
  | _ => t.close

/-- The tile instructions of a warp under way. -/
def Warp.tileOps (w : Warp) : List Op :=
  w.ops.filter (fun o =>
    match o.body with
    | .tile .. => true
    | .chain .. => true
    | _ => false)

/-- TILE_COMPLETE: a tile instruction of the warp goes on: a TLD reads parts, a chain takes a step, and with nothing left the new
version is written (R305, R306, R313). Which instruction goes on is free (log entry 3). -/
def execTileComplete (core warp : Nat) (s : State) : Host.Outcome State Fault Refusal :=
  match s.viewOf core warp with
  | none => s.same
  | some t =>
    match t.w.tileOps[Config.pick s.tick [53] % t.w.tileOps.length]? with
    | none => s.same
    | some o =>
      match o.body with
      | .tile slot acc img todo dfr => .next (t.tileStep o slot acc img todo dfr)
      | .chain slot left rows img flags sat => .next (t.chainNext o slot left rows img flags sat)
      | _ => s.same

end Sys2Proof.Machine
end

