-- ==== Sys2Proof/Machine/Rewrite.lean ====
section
/-!
DEFINITION. The rewrite stage (spec 16 R394 to R409; spec 06 R125): the rule table, windows and their matching, the issue
of groups, and the matchable tile instructions.
-/
namespace Sys2Proof.Machine

/-! ### Rule entries (R398 to R401) -/

/-- A field of a number: `n` bits from `lo` on. -/
def bitsAt (x lo n : Nat) : Nat := x / 2 ^ lo % 2 ^ n

/-- A pattern template (R399): opcode, modifiers required under a mask, variables for hd, ha, hb. -/
structure Template where
  opc : Nat
  mv : Nat
  mm : Nat
  vars : List Nat
  deriving DecidableEq, Repr

/-- A replacement template with its exponent adjustment (R400). -/
structure Substitute where
  opc : Nat
  mc : Nat
  mcp : Nat
  msrc : Nat
  vars : List Nat
  adj : Nat
  deriving DecidableEq, Repr

/-- A rule entry (R398). -/
structure RewriteRule where
  num : Nat
  cls : Nat
  pats : List Template
  subs : List Substitute
  kill : Nat
  acc : Nat
  opnd : Nat
  s16 : Nat
  fmtm : Nat
  fmtv : Nat
  k128 : Nat
  deriving DecidableEq, Repr

/-- The template that a word holds. -/
def Template.ofWord (x : Nat) : Template :=
  { opc := bitsAt x 0 8, mv := bitsAt x 8 5, mm := bitsAt x 13 5, vars := [bitsAt x 18 4, bitsAt x 22 4, bitsAt x 26 4] }

/-- The replacement that a word and its adjustment hold. -/
def Substitute.ofWord (x adj : Nat) : Substitute :=
  { opc := bitsAt x 0 8, mc := bitsAt x 8 5, mcp := bitsAt x 13 5, msrc := bitsAt x 18 2,
    vars := [bitsAt x 20 4, bitsAt x 24 4, bitsAt x 28 4], adj := adj }

/-- NP and NR of an entry. -/
def entryNP (bs : List Byte) : Nat := bitsAt (bytesNat bs 2 1) 0 3
def entryNR (bs : List Byte) : Nat := bitsAt (bytesNat bs 2 1) 3 2

/-- Words of the templates and replacements of an entry. -/
def templateWord (bs : List Byte) (i : Nat) : Nat := bytesNat bs (4 + 4 * i) 4
def substituteWord (bs : List Byte) (i : Nat) : Nat := bytesNat bs (28 + 4 * i) 4
def adjByte (bs : List Byte) (i : Nat) : Nat := bytesNat bs (36 + i) 1

/-- The rule that 64 bytes hold. -/
def RewriteRule.ofBytes (bs : List Byte) : RewriteRule :=
  { num := bytesNat bs 0 2, cls := bitsAt (bytesNat bs 2 1) 5 3,
    pats := (List.range (min 4 (entryNP bs))).map (fun i => .ofWord (templateWord bs i)),
    subs := (List.range (min 2 (entryNR bs))).map (fun i => .ofWord (substituteWord bs i) (adjByte bs i)),
    kill := bytesNat bs 20 1, acc := bytesNat bs 21 1, opnd := bytesNat bs 22 1, s16 := bytesNat bs 23 1,
    fmtm := bytesNat bs 24 2, fmtv := bytesNat bs 26 1, k128 := bytesNat bs 27 1 }

/-- The matchable opcodes (R394). -/
def matchable (op : Nat) : Bool := [0x7F, 0x86, 0x88, 0x89, 0x8A, 0x8D, 0x8E].contains op

/-- An enabled entry (R398). -/
def entryEnabled (bs : List Byte) : Bool := (bytesNat bs 3 1).testBit 0

/-- The variables that the templates bind. -/
def RewriteRule.bound (r : RewriteRule) : List Nat := (r.pats.flatMap Template.vars).filter (fun v => v < 8)

/-- Whether a TSCALE .p2 template fixes its variant (R400, R401). -/
def Template.isP2 (p : Template) : Bool := p.opc == 0x89 && p.mm.testBit 4 && p.mv.testBit 4

/-- The adjustment of a replacement is well formed (R400, R401). -/
def RewriteRule.adjOk (r : RewriteRule) (u : Substitute) : Bool :=
  let a := u.adj
  a == 0 || (u.opc == 0x86 && a < 128 && a.testBit 0 && r.bound.contains (bitsAt a 4 3) &&
    (!a.testBit 1 || ((r.pats[bitsAt a 2 2]?).map Template.isP2).getD false))

/-- R401: an enabled entry that is malformed. Format codes 14 and 15 are reserved (R50). -/
def entryMalformed (bs : List Byte) : Bool :=
  let r := RewriteRule.ofBytes bs
  let names (m : Nat) : Bool := (List.range 8).all (fun v => !m.testBit v || r.bound.contains v)
  entryEnabled bs &&
    !(bytesNat bs 3 1 < 2 && (bs.drop 38).all (fun b => b == 0) && r.cls ≤ 4 && 1 ≤ entryNP bs && entryNP bs ≤ 4 && entryNR bs != 3 &&
      r.pats.all (fun p => matchable p.opc && p.vars.all (fun v => v < 8 || v == 15)) &&
      (List.range 4).all (fun i => if i < entryNP bs then templateWord bs i < 2 ^ 30 else templateWord bs i == 0) &&
      r.subs.all (fun u => matchable u.opc && u.opc != 0x7F && u.msrc < entryNP bs &&
        u.vars.all (fun v => v == 15 || r.bound.contains v) && r.adjOk u) &&
      (List.range 2).all (fun i => i < entryNR bs || (substituteWord bs i == 0 && adjByte bs i == 0)) &&
      [r.kill, r.acc, r.opnd, r.s16, r.fmtv, r.k128].all names && r.fmtm < 2 ^ 14)

/-- The bytes of entry r of the block's table. -/
def Block.ruleBytes (b : Block) (r : Nat) : List Byte := Cells.getMany b.rules (64 * r) 64

/-- The enabled rules that cr.rwperm permits, in ascending order (R125, R402). -/
def Block.activeRules (b : Block) : List RewriteRule :=
  (((List.range 64).filter (fun r => (Cells.get b.rules (64 * r + 3)).getLsbD 0)).map (fun r => RewriteRule.ofBytes (b.ruleBytes r))).filter
    (fun r => r.cls == 0 || b.rwperm.getLsbD (r.cls - 1))

/-! ### Windows (R394 to R396) -/

/-- An entry of a window: its instruction and address, and the handle map and array record as the earlier entries leave
them, and the handles whose format an earlier TCVT or TQUANT leaves unknown (R403). -/
structure WinEntry where
  addr : Addr
  op : Nat
  ins : Instr
  handles : List HandleEntry
  array : ArrayRec
  unfit : List Nat
  deriving DecidableEq, Repr

/-- The form F fields of a tile instruction; those of a form H one carry its handle as hd (none for the rest). -/
def tileFields : Instr → FormF
  | .talloc f | .tfree f | .tldw f | .tswap f | .tmma f | .tmmac f | .tzero f | .tscale f | .ttrans f | .tadd f | .tmul f => f
  | .tld f | .tst f | .tcvt f | .tquant f | .tgetrow f | .tsetrow f =>
    { hd := f.fn.extractLsb' 0 5, ha := 0, hb := 0, la := 0, mods := if f.fn.getLsbD 5 then 1 else 0 }
  | _ => { hd := 0, ha := 0, hb := 0, la := 0, mods := 0 }

/-- The warp in view with the handle map and array record of an entry. -/
def View.atEntry (t : View) (x : WinEntry) : View := { t with blk := { t.blk with handles := x.handles, array := x.array } }

/-- Handles an entry reads, writes and frees (R403). -/
def WinEntry.uses (t : View) (x : WinEntry) : List Nat × List Nat × List Nat :=
  let f := tileFields x.ins
  let h := f.hd.toNat
  let a := f.ha.toNat
  let b := f.hb.toNat
  match x.ins with
  | .talloc _ | .tzero _ | .tld _ => ([], [h], [])
  | .tfree _ => ([], [], [h])
  | .tldw _ => ([a], [], [])
  | .tswap _ => ([], [], [])
  | .tmma _ => ([h, a] ++ (if (t.atEntry x).blk.pairMode f then [a + 1] else []), [h], [])
  | .tmmac _ => (h :: (List.range (b % 8 + 1)).map (fun r => a + r), [h], [])
  | .tscale _ => if f.mods.getLsbD 4 then ([a], [h], []) else if f.mods == 2 then ([], [h], []) else ([a, b], [h], [])
  | .ttrans _ => ([a], [h], [])
  | .tadd _ | .tmul _ => ([a, b], [h], [])
  | .tst _ => ([h], [], [])
  | .tquant _ => if f.mods == 1 then ([h, h + 1], [h], [h + 1]) else ([h], [h], [])
  | .tcvt _ | .tgetrow _ | .tsetrow _ => ([h], [h], [])
  | _ => ([], [], [])

/-- Every handle an entry names; a TMMA also names its weight handle. -/
def WinEntry.names (t : View) (x : WinEntry) : List Nat :=
  let u := x.uses t
  u.1 ++ u.2.1 ++ u.2.2 ++ (match x.ins with
    | .tmma f => [f.hb.toNat]
    | _ => [])

/-- The handle map and array record after an entry, as far as steps 1 to 7 of R299 depend on them (R403). -/
def WinEntry.after (n : Nat) (x : WinEntry) : List HandleEntry × ArrayRec :=
  let f := tileFields x.ins
  let h := f.hd.toNat
  match x.ins with
  | .talloc _ =>
    let e1 : HandleEntry :=
      { HandleEntry.zero with own := n, st := .owned, fmt := f.ha.extractLsb' 0 4, acc := f.hb.getLsbD 3, rb := (f.hb.extractLsb' 0 3).toNat }
    (x.handles.set h e1, x.array)
  | .tfree _ => (x.handles.set h .zero, x.array)
  | .tquant _ => (if f.mods == 1 then x.handles.set (h + 1) .zero else x.handles, x.array)
  | .tldw _ =>
    let a := x.handles.getD f.ha.toNat .zero
    let p : Plane := { Plane.zero with valid := true, fmt := a.fmt, k := a.k }
    (x.handles, x.array.setShadow p)
  | .tswap _ => (x.handles, { x.array with act := !x.array.act })
  | _ => (x.handles, x.array)

/-- The unfit handles after an entry: those that a TCVT or TQUANT names are so for every later member (R403). -/
def WinEntry.unfitAfter (t : View) (x : WinEntry) : List Nat :=
  match x.ins with
  | .tcvt _ => addAll x.unfit (x.names t)
  | .tquant _ => addAll x.unfit (x.names t)
  | _ => x.unfit

/-- The flush points among tile instructions, a TFREE apart (R394). -/
def isFlush : Instr → Bool
  | .thand _ | .ttake _ | .tgetrow _ | .tred _ | .tabsmax _ | .tdrain _ => true
  | _ => false

/-- Takes the instructions of a clause into a window; the flag says that the window has ended. -/
def View.takeEntries (t : View) : List WinEntry → Addr → List (List Word32) → List WinEntry × Bool
  | W, _, [] => (W, false)
  | W, a, ws :: rest =>
    match decodeFor t.blk.launch.regs ws with
    | none => (W, true)
    | some d =>
      let st := match W.getLast? with
        | some x => (x.after t.w.num, x.unfitAfter t)
        | none => ((t.blk.handles, t.blk.array), [])
      let x : WinEntry := { addr := a, op := baseOp ws, ins := d.instr, handles := st.1.1, array := st.1.2, unfit := st.2 }
      let orphan := match d.instr with
        | .tfree f => !W.any (fun y => (y.names t).contains f.hd.toNat)
        | _ => false
      if 8 ≤ W.length || !isTile d.instr || isFlush d.instr || orphan then (W, true)
      else t.takeEntries (W ++ [x]) (a + BitVec.ofNat 64 (4 * ws.length)) rest

/-- The window goes on through following clauses of class 3 with the same guard; one that cannot be fetched ends it (R395,
R396). With it the clauses of which it holds instructions, which issue as they were read here. -/
def View.extend (t : View) : Nat → List WinEntry → List Clause → Addr → List WinEntry × List Clause
  | 0, W, cs, _ => (W, cs)
  | k + 1, W, cs, h =>
    match scanHeader (fun a => t.dev.codeWord t.core t.blk.launch a) h with
    | .error _ => (W, cs)
    | .ok (word, is) =>
      if word.extractLsb' 16 8 != t.cl.word.extractLsb' 16 8 then (W, cs)
      else
        let r := t.takeEntries W (h + 4) is
        let cs1 : List Clause := if W.length < r.1.length then cs ++ [{ header := h, word := word, idx := 1, todo := is, eff := 0, start := 0 }] else cs
        if r.2 then (r.1, cs1) else t.extend k r.1 cs1 (h + BitVec.ofNat 64 (4 * (1 + (is.map List.length).sum)))

/-- The window at the instruction that issues next, and the clauses beyond the present one that it reaches into. -/
def View.window (t : View) : List WinEntry × List Clause :=
  let r := t.takeEntries [] t.pc t.cl.todo
  if r.2 then (r.1, []) else t.extend 8 r.1 [] (t.pc + BitVec.ofNat 64 (4 * (t.cl.todo.map List.length).sum))

/-! ### Matching (R402, R403) -/

/-- Whether an entry fits a template, its bindings apart (R399). -/
def Template.fits (p : Template) (x : WinEntry) : Bool :=
  let f := tileFields x.ins
  x.op == p.opc && f.mods.toNat &&& p.mm == p.mv &&
    (p.vars.zip [f.hd, f.ha, f.hb]).all (fun q => q.1 != 15 || q.2 == 0)

/-- The members after position `i`: each the earliest free entry that fits its template. -/
def laterMembers (W : List WinEntry) (used : List Nat) : List Template → Nat → Option (List Nat)
  | [], _ => some []
  | p :: ps, i =>
    match (List.range W.length).find? (fun j => i < j && !used.contains j && ((W[j]?).map p.fits).getD false) with
    | none => none
    | some j => (laterMembers W used ps j).map (fun r => j :: r)

/-- The members of rule r at entry p. -/
def RewriteRule.members (r : RewriteRule) (W : List WinEntry) (used : List Nat) (p : Nat) : Option (List Nat) :=
  match r.pats with
  | [] => none
  | q :: qs => if ((W[p]?).map q.fits).getD false then (laterMembers W used qs p).map (fun js => p :: js) else none

/-- Variables with the handles that the members give them. -/
def RewriteRule.bindings (r : RewriteRule) (ms : List WinEntry) : List (Nat × Nat) :=
  (r.pats.zip ms).flatMap (fun q =>
    let f := tileFields q.2.ins
    (q.1.vars.zip [f.hd.toNat, f.ha.toNat, f.hb.toNat]).filter (fun v => v.1 < 8))

/-- One handle for a variable, one variable for a handle (R399). -/
def bindingsOk (b : List (Nat × Nat)) : Bool := b.all (fun x => b.all (fun y => (x.1 == y.1) == (x.2 == y.2)))

/-- The handle of a variable. -/
def boundTo (b : List (Nat × Nat)) (v : Nat) : Nat := ((b.find? (fun x => x.1 == v)).map Prod.snd).getD 0

/-- Steps 1 to 7 of R299 for a matchable instruction. -/
def View.memberPre (t : View) (op : Nat) (f : FormF) : Except FaultInfo Unit :=
  match op with
  | 0x86 => t.tmmaPre f
  | 0x89 => t.scalePre f
  | 0x8A => t.ttransPre f
  | 0x8D => t.binaryPre f
  | 0x8E => t.binaryPre f
  | _ => t.ownPre f

/-- A member passes the handle checks at its own position, and no earlier entry has made a handle of it unfit (R403). -/
def View.memberOk (t : View) (x : WinEntry) : Bool :=
  (x.names t).all (fun h => !x.unfit.contains h) &&
  match (t.atEntry x).memberPre x.op (tileFields x.ins) with
  | .ok _ => true
  | .error _ => false

/-- The predicates of a variable on its handle's entry (R403). -/
def RewriteRule.holds (r : RewriteRule) (v : Nat) (e : HandleEntry) : Bool :=
  (!r.acc.testBit v || e.acc) && (!r.opnd.testBit v || (e.st != .free && !e.acc)) && (!r.s16.testBit v || e.is16) &&
    (!r.k128.testBit v || e.k == 128) && (!r.fmtv.testBit v || r.fmtm.testBit e.fmt.toNat)

/-- Entries after a group: the handle is written or freed before it is read (R403). -/
def killedAfter (t : View) (h : Nat) : List WinEntry → Bool
  | [] => false
  | x :: r =>
    let u := x.uses t
    if u.1.contains h then false else if u.2.1.contains h || u.2.2.contains h then true else killedAfter t h r

/-- An entry that no group may pass (R403). -/
def neverSkipped : Instr → Bool
  | .tldw _ | .tswap _ | .tmmac _ => true
  | _ => false

/-- TryRule with the conditions of R403: the members of a group and its bindings. -/
def View.tryRule (t : View) (W : List WinEntry) (used : List Nat) (p : Nat) (r : RewriteRule) : Option (List Nat × List (Nat × Nat)) :=
  match r.members W used p with
  | none => none
  | some js =>
    let ms := js.filterMap (fun j => W[j]?)
    let b := r.bindings ms
    let hs := b.map Prod.snd
    let start := ((ms.head?).map WinEntry.handles).getD []
    let last := js.getLastD p
    let skipped := ((List.range W.length).filter (fun j => p < j && j < last && !js.contains j)).filterMap (fun j => W[j]?)
    let freed := ms.flatMap (fun x => (x.uses t).2.2)
    let ok :=
      bindingsOk b && ms.all t.memberOk && b.all (fun v => r.holds v.1 (start.getD v.2 .zero)) &&
        skipped.all (fun x => !neverSkipped x.ins && (x.names t).all (fun h => !hs.contains h)) &&
        b.all (fun v => !r.kill.testBit v.1 || freed.contains v.2 || killedAfter t v.2 (W.drop (last + 1)))
    if ok then some (js, b) else none

/-- A formed group: its rule, members' positions and bindings. -/
structure Group where
  rule : RewriteRule
  js : List Nat
  bind : List (Nat × Nat)
  deriving DecidableEq, Repr

/-- Forms the groups of a window in ascending order of their first members; the lowest matching rule decides (R402). -/
def View.formGroups (t : View) (W : List WinEntry) (rules : List RewriteRule) : List Nat → List Group → List Group
  | [], gs => gs
  | p :: ps, gs =>
    let used := gs.flatMap Group.js
    if used.contains p || !((W[p]?).map (fun x => matchable x.op)).getD false then t.formGroups W rules ps gs
    else
      match rules.findSome? (fun r => (t.tryRule W used p r).map (fun x => ({ rule := r, js := x.1, bind := x.2 } : Group))) with
      | none => t.formGroups W rules ps gs
      | some g => t.formGroups W rules ps (gs ++ [g])

/-- A replacement of a group (R400): the last one carries the lookahead of the last member. -/
def Group.replacement (g : Group) (W : List WinEntry) (la : BitVec 4) (u : Substitute) : Replacement :=
  let mods (k : Nat) : Nat := (((g.js[k]?).bind (fun j => W[j]?)).map (fun x => (tileFields x.ins).mods.toNat)).getD 0
  let field (k : Nat) : BitVec 5 :=
    let v := u.vars.getD k 15
    if v = 15 then 0 else BitVec.ofNat 5 (boundTo g.bind v)
  let m := (u.mc &&& (31 - u.mcp)) ||| (mods u.msrc &&& u.mcp)
  let k : Int := if u.adj.testBit 1 then (BitVec.ofNat 4 (mods (bitsAt u.adj 2 2))).toInt else 0
  { op := u.opc, f := { hd := field 0, ha := field 1, hb := field 2, la := la, mods := BitVec.ofNat 5 m },
    x := if u.adj.testBit 0 then some (boundTo g.bind (bitsAt u.adj 4 3), k) else none }

/-- The rewrite report of a group (R406). -/
def Group.report (g : Group) : Word64 :=
  let p := g.js.headD 0
  BitVec.ofNat 64 (g.rule.num + 2 ^ 16 * (g.js.map (fun j => 2 ^ (j - p))).sum + 2 ^ 24)

/-- The fate of entry j under the groups formed. -/
def planOf (W : List WinEntry) (gs : List Group) (j : Nat) : PlanItem :=
  match gs.find? (fun g => g.js.contains j) with
  | none => .pass
  | some g =>
    if g.js.getLast? != some j then .absorbed
    else
      let ms := g.js.filterMap (fun k => W[k]?)
      let la := ((ms.getLast?).map (fun x => (tileFields x.ins).la)).getD 0
      let n := g.rule.subs.length
      let repl := ((List.range n).zip g.rule.subs).map (fun q => g.replacement W (if q.1 + 1 = n then la else 0) q.2)
      .last g.report (((ms.head?).map WinEntry.addr).getD 0) repl (ms.map (fun x => (x.op, tileFields x.ins)))

/-- The plan of a window; an instruction that is itself a flush point passes alone. -/
def View.matchWindow (t : View) (W : List WinEntry) : List PlanItem :=
  if W.isEmpty then [.pass]
  else
    let gs := t.formGroups W t.blk.activeRules (List.range W.length) []
    (List.range W.length).map (planOf W gs)

/-- WINDOW_MATCH: the window of a warp is matched against the rule table (R396, R402). -/
def execWindowMatch (core warp : Nat) (s : State) : Host.Outcome State Fault Refusal :=
  match s.viewOf core warp with
  | none => s.same
  | some t =>
    if t.w.tries && t.w.plan.isEmpty && t.eff != 0 && !t.cl.todo.isEmpty && t.inWindow t.decoded then
      let r := t.window
      .next (t.setW { t.w with plan := t.matchWindow r.1, ahead := r.2 }).close
    else s.same

/-! ### Issue of groups (R404, R406) -/

/-- The instruction that a replacement stands for. -/
def Replacement.instr (r : Replacement) : Instr :=
  match r.op with
  | 0x86 => .tmma r.f
  | 0x88 => .tzero r.f
  | 0x89 => .tscale r.f
  | 0x8A => .ttrans r.f
  | 0x8D => .tadd r.f
  | _ => .tmul r.f

/-- Executes a replacement with every check of its own (R400, R404). -/
def View.replace (t : View) (r : Replacement) : Res :=
  match r.instr.fieldFault t.blk.launch.regs with
  | some d => .fault (flt 0x02 d)
  | none =>
    match r.op with
    | 0x86 => t.tmmaBody (r.x.map (fun x => (t.blk.handle x.1).rx + x.2)) r.f
    | 0x88 => t.tzeroBody r.f
    | 0x89 => t.tscaleBody r.f
    | 0x8A => t.ttransBody r.f
    | 0x8D => t.binaryBody r.f false
    | _ => t.binaryBody r.f true

/-- Bookkeep (R404): a TFREE member frees its handle; a handle that a member would have written is stale where a plane names
it. -/
def View.bookkeep (t : View) : List (Nat × FormF) → Res
  | [] => .ok t
  | (op, f) :: r =>
    if op = 0x7F then
      match t.tfreeBody f with
      | .ok t1 => View.bookkeep t1 r
      | x => x
    else if op = 0x89 && f.mods == 2 then t.bookkeep r
    else View.bookkeep { t with blk := t.blk.stale f.hd.toNat } r

/-- A fault of a group names its earliest member and carries the report (R406). -/
def FaultInfo.ofGroup (f : FaultInfo) (report : Word64) (first : Addr) : FaultInfo := { f with addr := some first, report := report }

/-- The state after a part of a group, with the view it leaves when it succeeds; a fault of class 0 is a wait. -/
def View.groupPart (t : View) (report : Word64) (first : Addr) (r : Res) (k : View → View) : State :=
  match r with
  | .ok t1 => if t.w.waiting.isSome then t.polled.close else (k t1).close
  | .fault f => t.finish .short (if f.cls == 0 then .wait else .fault (f.ofGroup report first))
  | .faultIn t1 f => t.finish .short (if f.cls == 0 then .wait else .faultIn t1 (f.ofGroup report first))
  | r => t.finish .short r

/-- Whether Bookkeep must wait for operations under way on the handles that it frees: a TFREE member frees its handle after the
replacements have read it (R404). -/
def View.bookWaits (t : View) (book : List (Nat × FormF)) : Bool := book.any (fun x => x.1 == 0x7F && t.hazard (.tfree x.2))

/-- The last member of a group issues (R404): one replacement at a time, each once nothing under way holds its handles (R305), then
Bookkeep. -/
def View.issueGroup (t : View) (report : Word64) (first : Addr) (repl : List Replacement) (book : List (Nat × FormF))
    (rest : List PlanItem) : State :=
  match repl with
  | r :: rs => t.groupPart report first (if t.hazard r.instr then .wait else t.replace r)
      (fun t1 => t1.setW { t1.w with plan := .last report first rs book :: rest })
  | [] => t.groupPart report first (if t.bookWaits book then .wait else t.bookkeep book)
      (fun t1 => (t1.setW { t1.w.count 4 1 with plan := rest }).retire)

/-- Executes a matchable tile instruction: as the last member of its group, or as written. -/
def issueTile (i : Instr) (body : View → Res) (s : State) : Host.Outcome State Fault Refusal :=
  match s.view with
  | none => .fault .noCurrentWarp
  | some t =>
    if t.cl.todo.isEmpty then .fault .noCurrentWarp
    else
      match t.w.plan with
      | .last report first repl book :: rest =>
        if t.inWindow i && t.eff != 0 then .next (t.issueGroup report first repl book rest)
        else issue i body s
      | _ => issue i body s

/-! ### The matchable instructions -/

/-- TFREE (R301). -/
def execTfree (f : FormF) (s : State) : Host.Outcome State Fault Refusal := issueTile (.tfree f) (fun t => t.tfreeBody f) s
/-- TMMA (R311). -/
def execTmma (f : FormF) (s : State) : Host.Outcome State Fault Refusal := issueTile (.tmma f) (fun t => t.tmmaBody none f) s
/-- TZERO (R315). -/
def execTzero (f : FormF) (s : State) : Host.Outcome State Fault Refusal := issueTile (.tzero f) (fun t => t.tzeroBody f) s
/-- TSCALE (R316). -/
def execTscale (f : FormF) (s : State) : Host.Outcome State Fault Refusal := issueTile (.tscale f) (fun t => t.tscaleBody f) s
/-- TTRANS (R315). -/
def execTtrans (f : FormF) (s : State) : Host.Outcome State Fault Refusal := issueTile (.ttrans f) (fun t => t.ttransBody f) s
/-- TADD (R315). -/
def execTadd (f : FormF) (s : State) : Host.Outcome State Fault Refusal := issueTile (.tadd f) (fun t => t.binaryBody f false) s
/-- TMUL (R315). -/
def execTmul (f : FormF) (s : State) : Host.Outcome State Fault Refusal := issueTile (.tmul f) (fun t => t.binaryBody f true) s

/-! ### The rule table (R397, R408, R457) -/

/-- The bytes of a table of 64 entries (R397). -/
def tableBytes (rules : Cells 8) : List Byte := Cells.getMany rules 0 4096

/-- A context's measurement takes the digest of a table its block installs, once for each table (R457). -/
def State.measureTable (s : State) (ctx : Nat) (rules : Cells 8) : State :=
  let d := Config.shake256 (tableBytes rules)
  let m := (s.measures.find? (fun m => m.ctx == ctx)).getD { ctx := ctx, value := 0, seen := [] }
  if m.seen.contains d then s
  else
    let m1 : Measure := { m with value := Config.shake256 (leBytes 64 m.value.toNat ++ leBytes 64 d.toNat), seen := m.seen ++ [d] }
    { s with measures := m1 :: s.measures.filter (fun x => x.ctx != ctx) }

/-- Installs a block's table from the bytes of its first entries; the others are disabled. -/
def Block.installRules (b : Block) (bs : List Byte) : Block := { b with rules := Cells.ofList 0 bs }

/-- Reads `n` entries at an address in one read (R408). -/
def View.readRules (t : View) (va : Addr) (n : Nat) : ReadRes := t.readVa va (64 * n)

/-- Entries of a list of bytes that fail R401. -/
def anyMalformed (n : Nat) (bs : List Byte) : Bool := (List.range n).any (fun i => entryMalformed ((bs.drop (64 * i)).take 64))

/-- The entries read are installed once every warp of the block has flushed its window; until then the warp keeps what it has read
(R408). -/
def View.loadRules (t : View) (bs : List Byte) : Res :=
  if (t.blk.setWarp t.w).warps.any (fun y => !y.plan.isEmpty) then t.waitFor (.rules bs)
  else
    let b := t.blk.installRules bs
    .ok { t with blk := b, dev := t.dev.measureTable t.blk.launch.ctx b.rules }

/-- RWLOAD: fn [6:0] entries from s(sa), read once and checked, then installed (R408). -/
def execRwload (f : FormH) (s : State) : Host.Outcome State Fault Refusal :=
  issue (.rwload f) (fun t =>
    let n := (f.fn.extractLsb' 0 7).toNat
    let va := t.w.rs f.sa
    match t.w.wait with
    | some (.rules bs) => t.loadRules bs
    | _ =>
      if n != 0 && va.toNat % 64 != 0 then .fault ((flt 0x0A 0x00).at va)
      else (t.readRules va n).then (fun t1 bs => if anyMalformed n bs then .fault (flt 0x02 0x0A) else t1.loadRules bs)) s

end Sys2Proof.Machine
end

