-- ==== Sys2Proof/Machine/Frame.lean ====
section
/-!
DEFINITION. The save frame (spec 18 R441 to R443, R445, R507): the layout in which a block's state stands in its context's
save object, written and read.
-/
namespace Sys2Proof.Machine

/-- A Bool as a bit. -/
def bit (b : Bool) : Nat := if b then 1 else 0

/-! ### Words of the block-level areas (R296, R308, R507) -/

/-- The number of a handle's status. -/
def HandleSt.code : HandleSt → Nat
  | .free => 0
  | .owned => 1
  | .handed => 2
  | .freed => 3

/-- The 64-bit form of a handle map entry (R296). -/
def HandleEntry.word (e : HandleEntry) : Nat :=
  e.slot + 2 ^ 7 * bit e.v + 2 ^ 8 * e.rslot + 2 ^ 15 * bit e.rv + 2 ^ 16 * e.own + 2 ^ 22 * e.tgt + 2 ^ 28 * e.st.code +
    2 ^ 30 * e.fmt.toNat + 2 ^ 34 * bit e.acc + 2 ^ 35 * e.rb + 2 ^ 38 * (BitVec.ofInt 6 e.rx).toNat

/-- The entry that a word holds; no slot is claimed yet. -/
def HandleEntry.ofWord (x : Nat) : HandleEntry :=
  { slot := 0, v := false, rslot := 0, rv := false, own := bitsAt x 16 6, tgt := bitsAt x 22 6,
    st := if bitsAt x 28 2 = 0 then .free else if bitsAt x 28 2 = 1 then .owned else if bitsAt x 28 2 = 2 then .handed else .freed,
    fmt := BitVec.ofNat 4 (bitsAt x 30 4), acc := x.testBit 34, rb := bitsAt x 35 3, rx := (BitVec.ofNat 6 (bitsAt x 38 6)).toInt }

/-- A plane word (R507). -/
def Plane.word (p : Plane) : Nat :=
  bit p.valid + 2 * p.fmt.toNat + 2 ^ 5 * (BitVec.ofInt 6 p.rxw).toNat + 2 ^ 11 * bit p.t + 2 ^ 12 * p.src + 2 ^ 17 * bit p.stale +
    2 ^ 18 * bit (p.k == 128)

/-- The plane of a word and an image, reloaded from the frame from now on (R314, R446). -/
def Plane.ofWord (x : Nat) (img : List Byte) : Plane :=
  { valid := x.testBit 0, fmt := BitVec.ofNat 4 (bitsAt x 1 4), rxw := (BitVec.ofNat 6 (bitsAt x 5 6)).toInt, t := x.testBit 11,
    src := bitsAt x 12 5, stale := x.testBit 17, k := if x.testBit 18 then 128 else 64, fromSlot := 0, saved := true,
    img := Cells.ofList 0 img }

/-- The 24 bytes of the array record (R507). -/
def ArrayRec.bytes (a : ArrayRec) : List Byte :=
  leBytes 1 (bit a.act + 2 * bit a.ownv) ++ leBytes 1 a.ownw ++ leBytes 6 0 ++ leBytes 8 a.p0.word ++ leBytes 8 a.p1.word

/-- Byte 30 of a grid record without CONT: PRIO, COOP, SYS. -/
def Launch.byte30 (l : Launch) : Nat := l.recPrio.toNat + 8 * bit l.coop + 16 * bit l.sys

/-- The continuation record in or outside a frame: CONT 1, NB 1, DESC the frame (R350, R442). -/
def contBytes (l : Launch) (frame : Addr) (jc : Nat) : List Byte :=
  leBytes 16 0 ++ leBytes 4 jc ++ leBytes 4 1 ++ leBytes 4 0 ++ leBytes 1 0 ++ leBytes 1 l.ctx ++ leBytes 1 (l.byte30 + 32) ++ [0] ++
    leBytes 8 0 ++ leBytes 8 frame.toNat ++ leBytes 8 0 ++ leBytes 8 0

/-- The block header (R507). -/
def headerBytes (l : Launch) (leads : Bool) : List Byte :=
  leBytes 8 (l.record.toNat % 2 ^ 55) ++ leBytes 4 l.block.toNat ++ leBytes 4 l.gang.toNat ++ leBytes 1 l.rank ++ leBytes 1 (bit leads) ++
    leBytes 2 0 ++ leBytes 4 l.shape.toNat ++ leBytes 1 l.tiles ++ leBytes 1 l.ctx ++ leBytes 1 l.byte30 ++ [0] ++ leBytes 2 l.stko ++
    leBytes 2 0 ++ leBytes 8 l.descBase.toNat ++ leBytes 2 l.dcnt ++ leBytes 6 0 ++ leBytes 8 l.frame.toNat ++ leBytes 4 l.nblocks.toNat ++
    leBytes 4 0

/-- The launch facts that a header gives, with what the placement adds: the priority at the pop, the rule table address of
the grid's record, and the continuation's record if it was popped. -/
def Launch.ofHeader (h : List Byte) (prio : Nat) (rule : Addr) (cont : Option Addr) : Launch :=
  let n (k len : Nat) : Nat := bytesNat h k len
  let shape : Word32 := BitVec.ofNat 32 (n 20 4)
  { record := BitVec.ofNat 64 (n 0 8 % 2 ^ 55), cont := cont, block := BitVec.ofNat 32 (n 8 4), nblocks := BitVec.ofNat 32 (n 56 4),
    gang := BitVec.ofNat 32 (n 12 4), rank := n 16 1 % 8, gsize := recG shape, ctx := n 25 1 % 64, prio := prio,
    recPrio := BitVec.ofNat 3 (n 26 1), coop := (n 26 1).testBit 3, sys := (n 26 1).testBit 4, frame := BitVec.ofNat 64 (n 48 8),
    regs := 8 * (bitsAt (n 20 4) 6 4 + 1), nwarps := bitsAt (n 20 4) 0 6 + 1, tiles := n 24 1 % 64, shape := shape,
    stko := n 28 2 % 2 ^ 12, descBase := BitVec.ofNat 64 (n 32 8 % 2 ^ 55), dcnt := n 40 2, rule := rule }

/-- Bank modes as the two control registers hold them (R126). -/
def bankRegs (m : Cells 2) : Nat × Nat :=
  ((List.range 32).foldl (fun x k => x + (Cells.get m k).toNat * 4 ^ k) 0, (List.range 16).foldl (fun x k => x + (Cells.get m (32 + k)).toNat * 4 ^ k) 0)

/-- Pads or cuts a list of bytes to a length. -/
def padTo (n : Nat) (bs : List Byte) : List Byte := (bs ++ List.replicate n 0).take n

/-- The 448 bytes of block registers from 0x240 on (R442, R507), with the head and count of each ring (R213). -/
def blockRegs (b : Block) : List Byte :=
  let m := bankRegs b.bankMode
  padTo 448 (leBytes 4 b.rwperm.toNat ++ leBytes 4 b.stagger.toNat ++ leBytes 8 m.1 ++ leBytes 4 m.2 ++ leBytes 4 0 ++
    ([6, 7, 8].flatMap (fun k => leBytes 8 (Cells.get b.counters k).toNat)) ++
    ((List.range 48).flatMap (fun k => leBytes 4 ((b.ring k).head + 2 ^ 12 * (b.ring k).words.length))) ++ leBytes 4 b.log.length)

/-- A tag list entry (R507). -/
def tagWord (t : Option TagRef) : Nat :=
  match t with
  | some r => r.tag.toNat + 2 ^ 12 * r.source.toNat + 2 ^ 31
  | none => 0

/-- The tag that an entry holds. -/
def TagRef.ofWord (x : Nat) : Option TagRef :=
  if x.testBit 31 then some { source := BitVec.ofNat 12 (bitsAt x 12 12), tag := BitVec.ofNat 12 (bitsAt x 0 12) } else none

/-- The tag list (R445). -/
def tagBytes (b : Block) : List Byte :=
  leBytes 4 (tagWord b.tag) ++ (List.range 15).flatMap (fun i => leBytes 4 (tagWord b.pendingTags[i]?))

/-- A job-list entry (R507). -/
def Job.entryBytes (j : Job) : List Byte :=
  (j.words.flatMap (fun w => leBytes 4 w.toNat)) ++
    (List.range 32).flatMap (fun l => leBytes 4 (if j.gather then (j.rows.getD l 0).toNat else 0)) ++
    leBytes 1 (bit j.gather + 16 * bit j.toGlobal) ++ leBytes 1 (j.warp + 128) ++ leBytes 2 j.obj ++ leBytes 4 j.row ++ leBytes 4 j.crc.toNat ++
    leBytes 4 0 ++ leBytes 8 (BitVec.ofInt 64 j.disp).toNat ++ leBytes 8 (j.pc.toNat % 2 ^ 55) ++ leBytes 64 0

/-- The words that `n` four-byte fields hold. -/
def wordsAt (bs : List Byte) (off n : Nat) : List Word32 := (List.range n).map (fun i => BitVec.ofNat 32 (bytesNat bs (off + 4 * i) 4))

/-- The job that an entry holds; it goes on at its first row not yet written. The object's entry is read again, `entry`, or when the
job runs (R285); `ident` is its place after what the device has under way (R255). -/
def Job.ofEntry (bs : List Byte) (ident : Nat) (entry : List Word64) : Option Job :=
  let n (k len : Nat) : Nat := bytesNat bs k len
  if !(n 161 1).testBit 7 then none
  else
    let g := (n 160 1).testBit 0
    some { gather := g, toGlobal := (n 160 1).testBit 4, words := wordsAt bs 0 8, rows := if g then wordsAt bs 32 32 else [],
           warp := n 161 1 % 64, pc := BitVec.ofNat 64 (n 184 8), seq := 0, ident := ident, obj := n 162 2 % 2 ^ 12, entry := entry,
           disp := (BitVec.ofNat 64 (n 176 8)).toInt, state := .waiting, row := n 164 4, moved := [], crc := BitVec.ofNat 32 (n 168 4),
           since := 0, trans := [], reads := [], writes := [], unknown := false, dfr := false }

/-- The footprint of a restored job; without its object's entry nothing is known of its pages (R254, R285). -/
def Job.footprintAgain (j : Job) (s : State) (ctx : Nat) : Job :=
  let k := j.footprint s ctx (objOfWords j.entry)
  if j.entry.isEmpty then
    { k with reads := k.reads.filter (fun r => !r.phys), writes := k.writes.filter (fun r => !r.phys), unknown := true, dfr := !j.toGlobal }
  else k

/-- A record of the log area (R288). -/
def LogRec.bytes (r : LogRec) : List Byte :=
  leBytes 8 (r.rcd.word.toNat + 2 ^ 46 * r.rcd.op.toNat + 2 ^ 52 * r.rcd.tag.toNat) ++ leBytes 4 r.rcd.lo.toNat ++ leBytes 4 r.rcd.hi.toNat

/-- The record that sixteen bytes hold, with its bin (R335). -/
def LogRec.ofBytes (bs : List Byte) (tagged : Bool) : LogRec :=
  let x := bytesNat bs 0 8
  let pa := 4 * bitsAt x 0 46
  { bin := if pa < 2 ^ 47 then channelOf pa else 256 + bitsAt pa 41 6, tagged := tagged,
    rcd := { word := BitVec.ofNat 46 (bitsAt x 0 46), op := BitVec.ofNat 6 (bitsAt x 46 6), tag := BitVec.ofNat 12 (bitsAt x 52 12),
             lo := BitVec.ofNat 32 (bytesNat bs 8 4), hi := BitVec.ofNat 32 (bytesNat bs 12 4) } }

/-! ### Warp areas (R443) -/

/-- The control word of a warp. -/
def Warp.controlWord (w : Warp) : Nat :=
  let sd := match w.outst with
    | some (.commit sd _) => some sd
    | _ => none
  w.depth + 2 ^ 16 * w.desc.index + 2 ^ 32 * bit w.frame + 2 ^ 33 * (w.ring.length - 4) + 2 ^ 39 * bit (w.life == .live) +
    2 ^ 40 * bit (w.life == .terminated) + 2 ^ 41 * bit sd.isSome + 2 ^ 42 * sd.getD 0

/-- An enrolment slot (R443). -/
def enrolBytes (e : Option Enrol) : List Byte :=
  match e with
  | none => leBytes 32 0
  | some x => leBytes 8 (x.addr.toNat % 2 ^ 55 + 2 ^ 63 * bit x.g) ++ leBytes 2 x.c ++ leBytes 2 x.a ++ leBytes 1 (x.phase.toNat + 128) ++ leBytes 19 0

/-- The enrolment that a slot holds. -/
def Enrol.ofBytes (bs : List Byte) : Option Enrol :=
  let n (k len : Nat) : Nat := bytesNat bs k len
  if (n 12 1).testBit 7 then
    some { g := (n 0 8).testBit 63, addr := BitVec.ofNat 64 (n 0 8 % 2 ^ 55), c := n 8 2, a := n 10 2, phase := BitVec.ofNat 4 (n 12 1) }
  else none

/-- The descriptor that names everything live. -/
def LiveDesc.all : LiveDesc := { index := 0, v := BitVec.allOnes 128, s := BitVec.allOnes 64, h := BitVec.allOnes 32, p := true, g := BitVec.allOnes 192 }

/-- The descriptor under which a warp is saved (R444): the core's copy of its current one. A warp that stops before its first
instruction has read none; all it has is saved (log entry 79). -/
def Warp.saved (w : Warp) : LiveDesc := if w.started then w.desc else .all

/-- What is written of a warp with `regs` vector registers, from its area's start: of one that is not live the control word only
(R443, R444). Descriptor bits of s0 and of registers beyond the allocation name nothing (R34). Return entries spilled into the slices
are saved with them, under plive only (R121; log entry 69). -/
def Warp.areas (w : Warp) (regs : Nat) : List (Nat × List Byte) :=
  let ctl := leBytes 8 w.controlWord
  let d := w.saved
  if w.life != .live then [(0x40, ctl)]
  else
    [(0x0, padTo 64 ((w.ring.take 4).flatMap Split.bytes)), (0x40, ctl), (0x48, leBytes 4 w.fpflags.toNat ++ leBytes 4 w.satflag.toNat),
     (0x50, (List.range 8).flatMap (fun i => leBytes 4 (w.rp i).toNat)), (0x70, leBytes 8 w.fs.toNat),
     (0x80, padTo 256 (w.hw.flatMap RetEntry.bytes)), (0x180, padTo 128 (w.enrol.flatMap enrolBytes)),
     (0x200, (List.range 6).flatMap (fun i => leBytes 8 (Cells.get w.counters i).toNat))] ++
    ((List.range 64).filter (fun i => i != 0 && d.s.getLsbD i)).map (fun i => (0x400 + 8 * i, leBytes 8 (w.rs i).toNat)) ++
    (if d.p then [(0x800, Cells.getMany w.slices 0 8192)] else []) ++
    ((List.range regs).filter (fun i => d.v.getLsbD i)).map (fun i =>
      (0x4000 + 128 * i, (List.range 32).flatMap (fun l => leBytes 4 (w.rv i l).toNat)))

/-- The splits that a saved table or stack holds (R27, R49); a held one waits for what the last instruction of its clause says
(`why`). -/
def splitsOf (why : Addr → Except FaultInfo HoldKind) (n : Nat) (bs : List Byte) : Except FaultInfo (List Split) :=
  let mask (i : Nat) : LaneMask := BitVec.ofNat 32 (bytesNat bs (16 * i + 8) 4)
  eachLane (fun (i : Nat) => do
    let pc : Addr := BitVec.ofNat 64 (bytesNat bs (16 * i) 8)
    let code := bytesNat bs (16 * i + 12) 1 % 4
    let st ← if code = 3 then (why pc).map SplitState.held else Except.ok (if code = 2 then .running else .ready)
    Except.ok ({ pc := pc, mask := mask i, st := st } : Split)) ((List.range n).filter (fun i => mask i != 0))

/-! ### The whole frame (R442, R444) -/

/-- Live warps of a block. -/
def Block.liveWarps (b : Block) : List Warp := b.warps.filter (fun w => w.life == .live)

/-- A handle whose tile is saved: named live by its owner's descriptor, or handed over (R444). -/
def Block.savesTile (b : Block) (h : Nat) (e : HandleEntry) : Bool :=
  e.v && (e.st == .handed || (e.st == .owned && b.liveWarps.any (fun w => w.num == e.own && w.saved.h.getLsbD h)))

/-- The bitmap of the records that were confirmed without a tag (R507). -/
def untaggedBits (log : List LogRec) : List Byte :=
  (List.range 512).map (fun i => BitVec.ofNat 8 ((List.range 8).foldl (fun x k =>
    x + (match log[8 * i + k]? with
      | some r => if r.tagged then 0 else 2 ^ k
      | none => 0)) 0))

/-- The areas of a block's frame, by offset; those it does not use are not written: the job list of a block without a job, the log
area of one without a record (R442). -/
def Block.areas (b : Block) (frame : Addr) (leads : Bool) (others : List Addr) : List (Nat × List Byte) :=
  let granules := (List.range (b.scratchSize / 4096)).filter (fun i => b.liveWarps.any (fun w => w.saved.g.getLsbD i))
  let tiles := ((List.range 32).zip b.handles).filter (fun x => b.savesTile x.1 x.2)
  [(0x0, contBytes b.launch frame 0), (0x40, headerBytes b.launch leads), (0x100, b.handles.flatMap (fun e => leBytes 8 e.word)),
   (0x200, padTo 64 b.array.bytes), (0x240, blockRegs b), (0x400, tagBytes b), (0x1000, tableBytes b.rules),
   (0x2000, Cells.getMany b.array.p0.img 0 8192), (0x4000, Cells.getMany b.array.p1.img 0 8192)] ++
  (if b.jobs.isEmpty then [] else [(0x6000, padTo 16384 (b.jobs.flatMap Job.entryBytes))]) ++
  (if leads then [(0xA000, padTo 4096 (leBytes 8 others.length ++ others.flatMap (fun a => leBytes 8 a.toNat)))] else []) ++
  b.warps.flatMap (fun w => (w.areas b.launch.regs).map (fun x => (0x10000 + 0x8000 * w.num + x.1, x.2))) ++
  granules.map (fun i => (0x210000 + 4096 * i, Cells.getMany b.scratch (4096 * i) 4096)) ++
  ((List.range 48).filter (fun k => !(b.ring k).words.isEmpty)).map (fun k => (0x210000 + 0x4000 * k, (b.ring k).words.flatMap (fun x => leBytes 4 x.toNat))) ++
  tiles.map (fun x => (0x2D0000 + 0x4000 * x.1, (b.tileRows x.2).flatten)) ++
  (if b.log.isEmpty then [] else [(0x350000, b.log.flatMap LogRec.bytes), (0x360000, untaggedBits b.log)])

/-! ### The save object (R441, R505) -/

/-- Writes bytes of a context's memory, page by page. -/
def State.ctxWrite (s : State) (ctx : Nat) (sys : Bool) (va : Addr) (bs : List Byte) : Except FaultInfo State :=
  (cutRow va bs).foldl (fun r c =>
    match r with
    | .error f => .error f
    | .ok s =>
      if c.2.isEmpty then .ok s
      else
        match s.devTranslate ctx sys .write (va + BitVec.ofNat 64 c.1) c.2.length with
        | .error f => .error { f with kind := 1 }
        | .ok d => .ok ((s.devTouch ctx (va + BitVec.ofNat 64 c.1)).writeAt d 0 c.2)) (.ok s)

/-- Reads bytes of a context's memory, page by page. -/
def State.ctxRead (s : State) (ctx : Nat) (sys : Bool) (va : Addr) (n : Nat) : Except FaultInfo (List Byte) :=
  (eachLane (fun (p : Nat × Nat) =>
    (s.devTranslate ctx sys .read (va + BitVec.ofNat 64 p.1) p.2).map (fun d => s.readVia d.via d.pa p.2)) (pageParts va n)).map List.flatten

/-- The save object of a context: object 4,094, of space stack; none when it is missing (R441). -/
def State.saveObject (s : State) (core ctx : Nat) : Except FaultInfo (Option ObjEntry) :=
  match s.objWords core ctx 4094 [] with
  | .error f => .error f
  | .ok ws =>
    let e := objOfWords ws
    .ok (if e.v && e.ok && e.space == 3 then some e else none)

/-- The address of frame j. -/
def frameVa (e : ObjEntry) (j : Nat) : Addr := e.base + BitVec.ofNat 64 (0x1000 + 0x400000 * j)

/-- The address of the bitmap's byte for frame j. -/
def frameByte (e : ObjEntry) (j : Nat) : Addr := e.base + BitVec.ofNat 64 (j / 8)

/-- The lowest clear bit of the bitmap from frame j on, with its byte's place; `k` frames are left. -/
def State.findFrame (s : State) (ctx : Nat) (sys : Bool) (e : ObjEntry) : Nat → Nat → Except FaultInfo (Option (Nat × DevPlace))
  | _, 0 => .ok none
  | j, k + 1 =>
    match s.devTranslate ctx sys .rmw (frameByte e j) 1 with
    | .error f => .error { f with kind := 1 }
    | .ok d => if (s.readAt d 0 1).testBit (j % 8) then s.findFrame ctx sys e (j + 1) k else .ok (some (j, d))

/-- Claims a frame for a block: its address and the state with its bit set; none when no frame is free (R441). -/
def State.claimFrame (s : State) (core : Nat) (l : Launch) : Except FaultInfo (Option (Addr × State)) :=
  match s.saveObject core l.ctx with
  | .error f => .error f
  | .ok none => .ok none
  | .ok (some e) =>
    match s.findFrame l.ctx l.sys e 0 (min 32768 ((e.len - 0x1000) / 0x400000)) with
    | .error f => .error f
    | .ok none => .ok none
    | .ok (some (j, d)) =>
      let s1 := ((s.touchObj core l.ctx 4094 []).devTouch l.ctx e.base).devTouch l.ctx (frameByte e j)
      .ok (some (frameVa e j, s1.writeAt d 0 [BitVec.ofNat 8 (s.readAt d 0 1) ||| BitVec.ofNat 8 (2 ^ (j % 8))]))

/-- Clears the bit of the frame at an address (R446). -/
def State.tryClearFrame (s : State) (ctx : Nat) (sys : Bool) (frame : Addr) : DevRes :=
  match s.saveObject 0 ctx with
  | .error f => s.devFails ctx sys f (devRecord f 0 .read)
  | .ok none => .refused s
  | .ok (some e) =>
    let j := (frame.toNat - e.base.toNat - 0x1000) / 0x400000
    match s.devTranslate ctx sys .rmw (frameByte e j) 1 with
    | .error f => s.devFails ctx sys f (devRecord f (frameByte e j) .write)
    | .ok d =>
      .done (((s.touchObj 0 ctx 4094 []).devTouch ctx (frameByte e j)).writeAt d 0 [BitVec.ofNat 8 (s.readAt d 0 1) &&& ~~~(BitVec.ofNat 8 (2 ^ (j % 8)))])

/-- The same, now or when its pages become resident (R505). -/
def State.clearFrame (s : State) (ctx : Nat) (sys : Bool) (frame : Addr) : State :=
  (s.tryClearFrame ctx sys frame).orHold (.clearFrame ctx sys frame)

end Sys2Proof.Machine
end

