-- ==== Sys2Proof/Machine/Save.lean ====
section
/-!
DEFINITION. Saving and restoring blocks (spec 18 R440 to R447; spec 06 R123, R129; spec 13 R350). The blocks of a set are
saved in one step and restored in one step.
-/
namespace Sys2Proof.Machine

/-! ### SAVE_BLOCK -/

/-- The blocks saved together with the one on a core: ascending block index (R440, R446). -/
def State.saveSet (s : State) (c : Core) : List Core :=
  (s.cores.filter (fun x => c.block.launch.sameSet x.block.launch)).foldr (fun x acc =>
    (acc.takeWhile (fun y => y.block.launch.block < x.block.launch.block)) ++ x ::
      acc.dropWhile (fun y => y.block.launch.block < x.block.launch.block)) []

/-- Device work that is to be done before a block is saved: its placement, and the terminations of its warps (R436, R447). -/
def DevEvent.beforeSave (e : DevEvent) (core : Nat) : Bool :=
  match e with
  | .place c => c == core
  | .ended c _ _ _ => c == core
  | _ => false

/-- Whether a block's save may begin: every warp has stopped, no mode change is in flight, no job runs, what its warps had under way
has ended and its stores are performed, and its placement is done (R440, R444). -/
def State.saveReady (s : State) (c : Core) : Bool :=
  let b := c.block
  b.stopReq.isSome && b.liveWarps.all (fun w => w.stop == .stopped) && b.bankChanges.isEmpty && b.jobs.all (fun j => j.state != .running) &&
    b.warps.all (fun w => w.buf.isEmpty && w.fence.isNone && w.loads.isEmpty && w.ops.isEmpty) && !s.devEvents.any (fun e => e.1.beforeSave c.num)

/-- Whether the tile of a handle holds an uncorrectable error (R437). -/
def State.tileError (s : State) (core : Nat) (e : HandleEntry) : Bool :=
  (List.range 64).any (fun i => (e.rowKeys i).any (fun p => s.bad.contains (.slot core p.1 p.2)))

/-- Whether state that the save must write for a warp holds an uncorrectable error (R447). -/
def State.saveError (s : State) (c : Core) (w : Warp) : Bool :=
  let b := c.block
  let d := w.saved
  let live (h : Nat) (e : HandleEntry) : Bool := b.savesTile h e && e.own == w.num
  !s.bad.isEmpty && w.life == .live &&
    (s.bad.any (fun p =>
      match p with
      | .vreg c' n r _ => c' == c.num && n == w.num && d.v.getLsbD r
      | .sreg c' n r => c' == c.num && n == w.num && d.s.getLsbD r
      | .pred c' n _ => c' == c.num && n == w.num
      | .slice c' n _ _ => c' == c.num && n == w.num && d.p
      | .scratch c' x => c' == c.num && d.g.getLsbD (4 * x / 4096)
      | .plane c' _ => c' == c.num && b.array.ownv && b.array.ownw == w.num
      | _ => false) || ((List.range 32).zip b.handles).any (fun x => live x.1 x.2 && s.tileError c.num x.2))

/-- A handed-over handle whose tile holds an error becomes free, whatever has become of its giver (R447). -/
def State.dropBadTiles (s : State) (core : Nat) : State :=
  match s.block core with
  | none => s
  | some b =>
    let bad := ((List.range 32).zip b.handles).filter (fun x => x.2.v && x.2.st == .handed && s.tileError core x.2)
    if s.bad.isEmpty || bad.isEmpty then s
    else s.setBlock core (bad.foldl (fun c x => (c.setHandle x.1 .zero).stale x.1) b)

/-- Terminates the warps whose saved state holds an error, class 0x0E detail 0x04, and frees handles whose giver has exited (R447). -/
def State.saveErrors (s : State) (c : Core) : State :=
  ((c.block.warps.filter (s.saveError c)).foldl (fun s w =>
    match s.viewOf c.num w.num with
    | some t => t.raise { flt 0x0E 0x04 with addr := some w.ckpt.resume }
    | none => s) s).dropBadTiles c.num

/-- How a save ends: done, waiting for a page or for DRAM since the given time, or failed. -/
inductive SaveRes where
  | done (s : State)
  | waits (s : State) (since : Word64)
  | fails (s : State)

/-- The end of a save that a device access stops (R441, R505). -/
def DevRes.saves : DevRes → SaveRes
  | .waits s since => .waits s since
  | .refused s => .fails s
  | .done s => .done s

/-- A failure of an access of the save engine to memory of a context, for a block on a core (R342, R441, R505). -/
def State.saveFault (s : State) (core : Nat) (l : Launch) (f : FaultInfo) : SaveRes :=
  (s.devFails l.ctx l.sys f (devRecord f (f.va.getD 0) (if f.kind == 0 then .read else .write) (l.whose core 0))).saves

/-- Claims a frame for each block of a set. -/
def State.claimAll (s : State) : List Core → Except FaultInfo (Option (List (Core × Addr) × State))
  | [] => .ok (some ([], s))
  | c :: r =>
    match s.claimFrame c.num c.block.launch with
    | .error f => .error f
    | .ok none => .ok none
    | .ok (some (a, s1)) =>
      match s1.claimAll r with
      | .ok (some (l, s2)) => .ok (some ((c, a) :: l, s2))
      | x => x

/-- Writes a frame. -/
def State.writeFrame (s : State) (b : Block) (frame : Addr) (leads : Bool) (others : List Addr) : Except FaultInfo State :=
  (b.areas frame leads others).foldl (fun r a =>
    match r with
    | .error f => .error f
    | .ok s => s.ctxWrite b.launch.ctx b.launch.sys (frame + BitVec.ofNat 64 a.1) a.2) (.ok s)

/-- The requests of a saved block wait for its restore (R377). -/
def FabricReq.park (r : FabricReq) (c : Core) : FabricReq :=
  if r.core == c.num && r.saved.isNone then { r with saved := some (c.block.launch.ctx, c.block.launch.record, c.block.launch.block) } else r

/-- A saved block leaves its core; its commit goes on (R264), but where the frame has taken records of its tags it does so after the
restore (R444, R445; log entry 55), which also takes the next tag; and the faults of jobs that its live warps have still to raise are
kept, which the frame has no place for (R286; log entry 77). -/
def State.leaveSaved (s : State) (c : Core) : State :=
  let l := c.block.launch
  let faults := c.block.liveWarps.filterMap (fun w => w.jobFault.map (fun f => (w.num, f)))
  let s1 : State := { s with
    requests := s.requests.map (fun r => r.park c)
    savedBlocks := s.savedBlocks ++
      [{ ctx := l.ctx, record := l.record, block := l.block, stko := l.stackObj, jobFaults := faults, jobs := !c.block.jobs.isEmpty }]
    savedCommits := s.savedCommits ++ (c.block.commit.toList.map (fun k =>
      { launch := l, ctx := l.ctx, record := l.record, block := l.block, commit := { k with wantTag := false }
        logged := c.block.logHolds (s.sourceOf (galleryOf c.num)) k, done := false })) }
  s1.freeCore c.num

/-- The parking block of a set, with its continuation's address and join counter (R350). -/
def parkOf (cs : List Core) : Option (Core × Addr × Word32) :=
  cs.findSome? (fun c =>
    match c.block.stopReq with
    | some (.park a j) => some (c, a, j)
    | _ => none)

/-- How the arming of a continuation ends a save: any resulting code is a save done (R350, R444). -/
def Armed.saves (r : Armed) : SaveRes :=
  match r with
  | .done s _ => .done s
  | .waits s since => .waits s since

/-- The PARK continuation is written and armed (R350). -/
def State.armPark (s : State) (core : Nat) (l : Launch) (rcd : Addr) (jc : Word32) (frame : Addr) : SaveRes :=
  match s.devTranslate l.ctx l.sys .rmw rcd with
  | .error f => s.saveFault core l (({ f with kind := 1 } : FaultInfo).at (f.va.getD rcd))
  | .ok d => ((s.devTouch l.ctx rcd).writeArmed l.sys rcd d jc.toNat (contBytes l frame jc.toNat)).saves

/-- The continuation in the frame of a set's leader is appended to the run queue of its context and priority (R444). -/
def State.appendCont (s : State) (core : Nat) (l : Launch) (frame : Addr) : SaveRes :=
  match s.devTranslate l.ctx l.sys .rmw frame with
  | .error f => s.saveFault core l (({ f with kind := 1 } : FaultInfo).at (f.va.getD frame))
  | .ok d =>
    match (s.devTouch l.ctx frame).tryQueue frame d l.sys l.ctx l.recPrio.toNat id with
    | .refused s1 => .done s1
    | r => r.saves

/-- What makes a saved set's continuation run: an append, or the arming of PARK's. -/
def State.armSet (s : State) (cs : List Core) (c0 : Core) (frame : Addr) : SaveRes :=
  match parkOf cs with
  | none => s.appendCont c0.num c0.block.launch frame
  | some (c, a, j) => s.armPark c.num c.block.launch a j frame

/-- Saves a set of stopped blocks (R441 to R446). A failure or a wait leaves nothing of the save but its fault record: an access that
fails after the frames are written fails so before them too. -/
def State.saveAll (s : State) (cs : List Core) : SaveRes :=
  let lead := ((parkOf cs).map (fun p => p.1.num)).getD ((cs.head?.map Core.num).getD 0)
  match cs with
  | [] => .done s
  | c0 :: _ =>
    let l0 := c0.block.launch
    match s.claimAll cs with
    | .error f => s.saveFault c0.num l0 f
    | .ok none => .fails s
    | .ok (some (fs, s1)) =>
      let others := (fs.filter (fun x => x.1.num != lead)).map Prod.snd
      let r := fs.foldl (fun (r : Except FaultInfo State) x =>
        match r with
        | .error f => .error f
        | .ok s => s.writeFrame x.1.block x.2 (x.1.num == lead) others) (.ok s1)
      match r with
      | .error f => s.saveFault c0.num l0 { f with kind := 1 }
      | .ok s2 =>
        let frame := ((fs.find? (fun x => x.1.num == lead)).map Prod.snd).getD 0
        match s2.armSet cs c0 frame with
        | .done s3 => .done (cs.foldl State.leaveSaved s3)
        | _ => s.armSet cs c0 frame

/-- After a failed save every warp of the set goes on at its resume point, and a host request is told (R441, R454). -/
def State.resumeSet (s : State) (cs : List Core) : State :=
  let nums := cs.map Core.num
  let go (b : Block) : Block := { b with stopReq := none, warps := b.warps.map (fun w => { w with stop := .no }) }
  let failed := s.host.preBusy && cs.any (fun c => s.host.preSet.contains c.block.launch.ctx)
  { s with
    cores := s.cores.map (fun c => if nums.contains c.num then { c with block := go c.block } else c)
    host := if failed then { s.host with preFailed := true } else s.host }

/-- Who saves the set of the block on a core. -/
def State.saver (s : State) (c : Core) : Party := .save (((s.saveSet c).head?.map Core.num).getD c.num)

/-- Whether the save of a block may begin, with those saved with it, and does not wait for a page (R343, R440). -/
def State.maySave (s : State) (c : Core) : Bool := (s.saveSet c).all s.saveReady && s.mayTry (s.saver c)

/-- SAVE_BLOCK: once every warp of the block, and of those saved with it, has stopped, the save engine writes them (R444). One that
meets a page that is not resident waits (R343, R441). -/
def execSaveBlock (core : Nat) (s : State) : Host.Outcome State Fault Refusal :=
  match s.cores.find? (fun c => c.num == core) with
  | none => s.same
  | some c =>
    let p := s.saver c
    if !s.maySave c then s.same
    else
      let s1 := (s.saveSet c).foldl State.saveErrors (s.trying p)
      let cs1 := s1.saveSet c
      match s1.saveAll cs1 with
      | .done s2 => .next s2
      | .waits s2 since => .next (s2.holdSince (.party c.block.launch.ctx p) since)
      | .fails s2 => .next (s2.resumeSet cs1)

/-! ### Restore (R446) -/

/-- What the last instruction of the clause at an address makes a split wait for (R150, R154, R155); a clause that no longer ends in
such an instruction is taken as one that ends in BSYNC (log entry 55). -/
def State.holdAt (s : State) (core : Nat) (l : Launch) (pc : Addr) : Except FaultInfo HoldKind :=
  match scanHeader (fun a => s.codeWord core l a) pc with
  | .error f => .error (atHeader pc f)
  | .ok (_, is) =>
    let before := (is.dropLast.map List.length).sum
    let words := is.getLastD []
    let base := pc + BitVec.ofNat 64 (4 * (before + words.length))
    match (decodeFor l.regs words).map Decoded.instr with
    | some (.ret _) => .ok .ret
    | some (.retv f) => .ok (.retv f.a (f.b.extractLsb' 0 6) (f.var == 1))
    | some (.reconv f) => .ok (.reconv (base + BitVec.ofInt 64 (4 * immInt f.off f.imm)))
    | _ => .ok (.bsync (pc + BitVec.ofNat 64 (4 * (1 + before + words.length))))

/-- A frame as it is read: its address, and a reader of its bytes. -/
structure FrameIn where
  va : Addr
  read : Nat → Nat → Except FaultInfo (List Byte)

/-- The frame at an address of a context. -/
def State.frameAt (s : State) (ctx : Nat) (sys : Bool) (va : Addr) : FrameIn :=
  { va := va, read := fun off n => s.ctxRead ctx sys (va + BitVec.ofNat 64 off) n }

/-- The bytes of register fields that a list of indices names, each read on its own. -/
def readMany (rd : Nat → Nat → Except FaultInfo (List Byte)) (at0 : Nat → Nat) (n : Nat) : List Nat → Except FaultInfo (List (Nat × List Byte))
  | [] => .ok []
  | i :: r => do
    let bs ← rd (at0 i) n
    let rest ← readMany rd at0 n r
    .ok ((i, bs) :: rest)

/-- A liveness descriptor read as REGION reads one (R34). -/
def State.descOf (s : State) (core : Nat) (b : Block) (d : Nat) : Except FaultInfo LiveDesc :=
  match b.warps.head? with
  | none => .ok .none
  | some w =>
    match ({ dev := s, core := core, blk := b, w := w, cl := .empty } : View).readDesc d (fun t x => .ok (t.setW { t.w with desc := x })) with
    | .ok t => .ok t.w.desc
    | .fault f => .error f
    | _ => .error busy

/-- A read at a restore: one that waits for a page holds the restore; a refusal is met as the fault of the warp's first instruction
(R446 step 4, R505; log entry 55). -/
def orDead {α : Type} (d : α) (r : Except FaultInfo α) : Except FaultInfo (α × Option FaultInfo) :=
  match r with
  | .ok x => .ok (x, none)
  | .error f => if f.replayable || f.cls == 0 then .error f else .ok (d, some f)

/-- The ring of a warp: its saved table, then the `deep` entries of its split stack, in the warp's region of its stack object
(R28, R446 step 5). -/
def State.restoreRing (s : State) (core : Nat) (l : Launch) (n : Nat) (frame : Bool) (table : List Byte) (deep : Nat) : Except FaultInfo (List Split) := do
  let stack ← (if deep = 0 then .ok [] else do
    let va ← s.stackVa core l n .read (frameOff frame) 512
    s.ctxRead l.ctx l.sys va (16 * deep) : Except FaultInfo (List Byte))
  let a ← splitsOf (s.holdAt core l) 4 table
  let b ← splitsOf (s.holdAt core l) deep stack
  .ok (a ++ b)

/-- A warp as its area gives it (R443, R446 steps 4 and 5). `b` is its block with its launch facts. -/
def State.restoreWarp (s : State) (core : Nat) (b : Block) (fr : FrameIn) (n : Nat) : Except FaultInfo Warp := do
  let l := b.launch
  let rd (off k : Nat) := fr.read (0x10000 + 0x8000 * n + off) k
  let ctl ← (rd 0x40 8).map leNat
  let w0 := Warp.start n 0 none
  if !ctl.testBit 39 then
    .ok { w0 with life := if ctl.testBit 40 then .terminated else .exited, ring := [], started := true, ckpt := { w0.ckpt with ring := [] } }
  else
    let (desc, noDesc) ← orDead LiveDesc.none (s.descOf core b (bitsAt ctl 16 16))
    let table ← rd 0 64
    let frame := ctl.testBit 32
    let (ring, noRing) ← orDead [{ pc := BitVec.ofNat 64 (bytesNat table 0 8), mask := BitVec.ofNat 32 (bytesNat table 8 4), st := .running }]
      (s.restoreRing core l n frame table (bitsAt ctl 33 6))
    let flags ← rd 0x48 8
    let preds ← rd 0x50 32
    let fs ← (rd 0x70 8).map leNat
    let ret ← rd 0x80 256
    let enr ← rd 0x180 128
    let ctr ← rd 0x200 48
    let ss ← readMany rd (fun i => 0x400 + 8 * i) 8 ((List.range 64).filter (fun i => desc.s.getLsbD i && i != 0))
    let sl ← (if desc.p then rd 0x800 8192 else .ok [] : Except FaultInfo (List Byte))
    let vs ← readMany rd (fun i => 0x4000 + 128 * i) 128 ((List.range l.regs).filter (fun i => desc.v.getLsbD i))
    let depth := bitsAt ctl 0 16
    let hw := (List.range (min 16 depth)).map (fun i => RetEntry.ofBytes ((ret.drop (16 * i)).take 16))
    let resume := ((ring.find? (fun sp => sp.st == .running)).map Split.pc).getD 0
    .ok { w0 with
      started := true, ring := ring, depth := depth, hw := hw, frame := frame, dead := noDesc.or noRing, desc := desc
      fpflags := BitVec.ofNat 32 (bytesNat flags 0 4 % 2 ^ 6), satflag := BitVec.ofNat 32 (bytesNat flags 4 4 % 2), fs := BitVec.ofNat 64 fs
      p := Cells.setMany [] 0 (wordsAt preds 0 8)
      s := ss.foldl (fun m x => Cells.set m x.1 (BitVec.ofNat 64 (leNat x.2))) []
      v := vs.foldl (fun m x => Cells.setMany m (32 * x.1) (wordsAt x.2 0 32)) []
      slices := Cells.ofList 0 sl
      enrol := (List.range 4).map (fun i => Enrol.ofBytes ((enr.drop (32 * i)).take 32))
      counters := Cells.setMany [] 0 ((List.range 6).map (fun i => BitVec.ofNat 64 (bytesNat ctr (8 * i) 8)))
      outst := if ctl.testBit 41 then some (.commit (bitsAt ctl 42 6) s.clock) else none
      ckpt := { w0.ckpt with resume := resume, ring := ring, depth := depth, hw := hw, desc := desc, frame := frame } }

/-- Gives a saved handle free slots and its image (R446 step 3). -/
def Block.restoreTile (b : Block) (h : Nat) (img : List Byte) : Block :=
  let e := b.handle h
  match b.findSlot e.acc with
  | none => b
  | some k => { b.setHandle h { e with slot := k, v := true } with
      slots := Cells.splice b.slots (8192 * k) (8192 * (k + (if e.acc then 2 else 1))) (Cells.ofList 0 img) }

/-- The rings of the FIFO banks as the frame gives them, with their heads (R213). -/
def readRings (rd : Nat → Nat → Except FaultInfo (List Byte)) (regs : List Byte) : List Nat → Except FaultInfo (List Fifo)
  | [] => .ok []
  | k :: r => do
    let x := bytesNat regs (0x30 + 4 * k) 4
    let n := min 4096 (bitsAt x 12 13)
    let head := bitsAt x 0 12
    let bs ← (if n = 0 then .ok [] else rd (0x210000 + 0x4000 * k) (4 * n) : Except FaultInfo (List Byte))
    let rest ← readRings rd regs r
    .ok (if n = 0 && head = 0 then rest else { bank := k, head := head, words := wordsAt bs 0 n } :: rest)

/-- Whether the frame of a block has a job list; so it has where the model did not write the frame (log entry 79). -/
def State.hasJobs (s : State) (l : Launch) : Bool :=
  ((s.savedBlocks.find? (fun x => x.ctx == l.ctx && x.record == l.record && x.block == l.block)).map SavedBlock.jobs).getD true

/-- The block that a frame holds, on a core, before its tags (R446 steps 1 to 5); areas that the block does not use are not read
(R442). -/
def State.restoreBlock (s : State) (core : Nat) (l : Launch) (fr : FrameIn) : Except FaultInfo Block := do
  let regs ← fr.read 0x240 448
  let hm ← fr.read 0x100 256
  let ar ← fr.read 0x200 64
  let rules ← fr.read 0x1000 4096
  let p0 ← fr.read 0x2000 8192
  let p1 ← fr.read 0x4000 8192
  let js ← (if s.hasJobs l then fr.read 0x6000 16384 else .ok [] : Except FaultInfo (List Byte))
  let tags ← fr.read 0x400 64
  let nlog := min 4096 (bytesNat regs 0xF0 4)
  let log ← fr.read 0x350000 (16 * nlog)
  let untagged ← (if nlog = 0 then .ok [] else fr.read 0x360000 512 : Except FaultInfo (List Byte))
  let m := bytesNat regs 8 8 + 2 ^ 64 * bytesNat regs 16 4
  let b0 : Block := { Block.start l 0 (BitVec.ofNat 32 (bytesNat regs 4 4)) none with
    staggered := false
    bankMode := Cells.setMany [] 0 ((List.range 48).map (fun k => BitVec.ofNat 2 (m / 4 ^ k)))
    rwperm := BitVec.ofNat 32 (bytesNat regs 0 4 % 2 ^ 4)
    counters := Cells.setMany [] 6 ((List.range 3).map (fun k => BitVec.ofNat 64 (bytesNat regs (24 + 8 * k) 8)))
    handles := (List.range 32).map (fun h => HandleEntry.ofWord (bytesNat hm (8 * h) 8))
    array := { act := (bytesNat ar 0 1).testBit 0, ownv := (bytesNat ar 0 1).testBit 1, ownw := bytesNat ar 1 1 % 64,
               p0 := Plane.ofWord (bytesNat ar 8 8) p0, p1 := Plane.ofWord (bytesNat ar 16 8) p1 }
    rules := Cells.ofList 0 rules
    tag := TagRef.ofWord (bytesNat tags 0 4)
    pendingTags := (List.range 15).filterMap (fun i => TagRef.ofWord (bytesNat tags (4 + 4 * i) 4))
    log := (List.range nlog).map (fun i => LogRec.ofBytes ((log.drop (16 * i)).take 16) (!(bytesNat untagged (i / 8) 1).testBit (i % 8)))
    jobs := (List.range 64).filterMap (fun i =>
      let bs := (js.drop (256 * i)).take 256
      Job.ofEntry bs s.nextIdent (match s.objWords core l.ctx (bytesNat bs 162 2 % 2 ^ 12) [] with
        | .ok ws => ws
        | .error _ => [])) }
  let rings ← readRings fr.read regs (List.range 48)
  let ws ← (List.range l.nwarps).foldlM (fun acc n => (s.restoreWarp core b0 fr n).map (fun w => acc ++ [w])) []
  let b1 : Block := { b0 with fifo := rings, warps := ws, quads := quadsOf ((ws.filter (fun w => w.life == .live)).map Warp.num) }
  let granules := (List.range (b1.scratchSize / 4096)).filter (fun i => b1.liveWarps.any (fun w => w.desc.g.getLsbD i))
  let sc ← readMany fr.read (fun i => 0x210000 + 4096 * i) 4096 granules
  let kept := ((List.range 32).zip b1.handles).filter (fun x => x.2.st == .handed ||
    (x.2.st == .owned && b1.liveWarps.any (fun w => w.num == x.2.own && w.desc.h.getLsbD x.1)))
  let had := kept.filter (fun x => (bytesNat hm (8 * x.1) 8).testBit 7)
  let tiles ← had.foldlM (fun (acc : List (Nat × List Byte)) x =>
    (fr.read (0x2D0000 + 0x4000 * x.1) (if x.2.acc then 16384 else 8192)).map (fun bs => acc ++ [(x.1, bs)])) []
  let b2 : Block := { b1 with scratch := sc.foldl (fun c x => Cells.setMany c (4096 * x.1) x.2) [] }
  let b3 := tiles.foldl (fun b x => b.restoreTile x.1 x.2) b2
  .ok { b3 with jobs := b3.jobs.map (fun j => j.footprintAgain s l.ctx) }

/-- The checkpoint of each restored warp at its resume point (R35, R446 step 5). -/
def State.restoreCkpts (s : State) (core : Nat) : State :=
  match s.block core with
  | none => s
  | some b => (b.liveWarps.map Warp.num).foldl (fun s n =>
      match s.viewOf core n with
      | some t => (t.setW { t.w with ckpt := t.takeCkpt t.w.ckpt.resume }).close
      | none => s) s

/-- The tags of a restored block on its gallery (R445): one of the gallery's own becomes current, else the old current one
joins the list and a new one is taken. Restored records keep a tag of the gallery's. A COMMIT that waited for a tag closes the one
the block then has (R291). -/
def State.restoreTags (s : State) (core : Nat) : State :=
  match s.block core with
  | none => s
  | some b =>
    let src := s.sourceOf (galleryOf core)
    let all := b.tag.toList ++ b.pendingTags
    let mine := all.find? (fun t => t.source == src)
    let keeps (r : LogRec) : Bool := r.tagged && (b.tag.map TagRef.source) == some src
    let retag (r : LogRec) : LogRec :=
      if keeps r then r
      else
        match mine with
        | some t => { r with tagged := true, rcd := { r.rcd with tag := t.tag } }
        | none => { r with tagged := false }
    let b1 : Block := { b with tag := mine, pendingTags := all.filter (fun t => some t != mine), log := b.log.map retag }
    let s1 := s.setBlock core b1
    if mine.isSome then s1 else s1.obtainTag core

/-- The commit of a saved block comes back to it, or its status is delivered (R264, R446 step 6). -/
def State.restoreCommit (s : State) (core : Nat) (l : Launch) : State :=
  let mine (x : SavedCommit) : Bool := x.ctx == l.ctx && x.record == l.record && x.block == l.block
  match s.savedCommits.find? mine, s.block core with
  | some x, some b =>
    let s1 := { s with savedCommits := s.savedCommits.filter (fun y => !mine y) }
    if x.done then
      match x.commit.warp with
      | some (n, sd) => s1.mapWarp core n (fun w =>
          match w.outst with
          | some (.commit ..) => { w.ws sd x.commit.status with outst := none }
          | _ => w)
      | none => s1
    else s1.setBlock core { b with commit := some x.commit }
  | _, _ => s

/-- Requests of a restored block name its new core (R377). -/
def FabricReq.unpark (r : FabricReq) (core : Nat) (l : Launch) : FabricReq :=
  if r.saved == some (l.ctx, l.record, l.block) then { r with core := core, saved := none } else r

/-- The faults of jobs that a restored warp has still to raise (R286; log entry 77). -/
def Block.owedFaults (b : Block) (x : SavedBlock) : Block :=
  { b with warps := b.warps.map (fun w => { w with jobFault := (x.jobFaults.find? (fun y => y.1 == w.num)).map Prod.snd }) }

/-- Caches the object entries and translations that a restore has used: those of its jobs and of its stacks, and of the descriptors
of its warps (R381, R385). -/
def State.touchRestored (s : State) (core : Nat) (b : Block) : State :=
  let l := b.launch
  let s1 := (addAll [] (l.stackObj :: b.jobs.map Job.obj)).foldl (fun s n => s.touchObj core l.ctx n []) s
  let descs := b.liveWarps.map (fun w => (l.descBase + BitVec.ofNat 64 (64 * w.desc.index), [600]))
  let frames := b.liveWarps.filterMap (fun w =>
    match s1.stackVa core l w.num .read (frameOff w.frame) 512 with
    | .ok va => if w.ring.length ≤ 4 then none else some (va, [100])
    | .error _ => none)
  s1.touchAll (some core) l.ctx (descs ++ frames)

/-- Places a restored block on a core, with everything that follows (R446). -/
def State.putRestored (s : State) (core : Nat) (b : Block) : State :=
  let l := b.launch
  let mine (x : SavedBlock) : Bool := x.ctx == l.ctx && x.record == l.record && x.block == l.block
  let b1 := ((s.savedBlocks.find? mine).map b.owedFaults).getD b
  let s1 : State := { s.touchRestored core b with
    cores := s.cores ++ [{ num := core, block := b1 }]
    requests := s.requests.map (fun r => r.unpark core l)
    savedBlocks := s.savedBlocks.filter (fun x => !mine x)
    nextIdent := s.nextIdent + 1 }
  ((s1.restoreCommit core l).restoreTags core).restoreCkpts core

end Sys2Proof.Machine
end

