-- ==== Sys2Proof/Machine/Dispense.lean ====
section
/-!
DEFINITION. The dispensers (spec 13 R328 to R330; spec 02 R24 to R26, R43, R44; spec 09 R208; spec 18 R432, R445, R446), and
the retry of what waits for a page (spec 13 R343; spec 18 R435, R505).
-/
namespace Sys2Proof.Machine

/-! ### Cores (R25, R26, R460) -/

/-- A gallery takes new blocks: it is in service, and no quiesce of it has effect. -/
def State.galleryFit (s : State) (g : Nat) : Bool := !s.quiesced.contains g && !s.service.out.contains g

/-- A gang holds its aligned group until its last block has ended (R25). -/
def State.coreTaken (s : State) (c : Nat) : Bool :=
  s.cores.any (fun x =>
    let base := x.num - x.block.launch.rank
    base ≤ c && c < base + x.block.launch.gsize)

/-- A fit core (R26). -/
def State.fit (s : State) (c : Nat) : Bool := c < 320 && s.galleryFit (galleryOf c) && !s.coreTaken c

/-- Fit aligned groups of `g` cores in the range `[lo, hi)`, in turn from the one that holds core `c` (R25). -/
def State.fitGroups (s : State) (g c lo hi : Nat) : List Nat :=
  let n := (hi - lo) / g
  ((List.range n).map (fun i => lo + g * (((c - lo) / g + i) % n))).filter (fun b => (List.range g).all (fun i => s.fit (b + i)))

/-! ### Placing a block (R330, R432) -/

/-- What the placement check finds in the entry of a stack object (R432, checks 2 to 5). -/
def stackFault (e : ObjEntry) : Option FaultInfo :=
  if !e.v then some (flt 0x09 0x03)
  else if !e.ok then some (flt 0x09 0x02)
  else if e.space != 3 then some (flt 0x09 0x0F)
  else if e.len < 0x100000 then some (flt 0x07 0x03)
  else none

/-- The block's warps may issue; `f` is the fault that they meet at their first instruction. -/
def State.releaseBlock (s : State) (core : Nat) (b : Block) (f : Option FaultInfo) : State :=
  s.setBlock core { b with warps := b.warps.map (fun w =>
    { w with faultWait := false, dead := if w.life == .live then f.or w.dead else none }) }

/-- Device writes one after the other; a page that is not resident ends them (R505). -/
def State.tryDevWrites (s : State) (ctx : Nat) (sys : Bool) (who : Whose) : List (Addr × List Byte) → DevRes
  | [] => .done s
  | (va, bs) :: r =>
    match s.tryDevWrite ctx sys va bs who with
    | .waits s1 since => .waits s1 since
    | .refused s1 => s1.tryDevWrites ctx sys who r
    | .done s1 => s1.tryDevWrites ctx sys who r

/-- The check of a placed block's stack object and the clearing of its status area (R432); until they are done its warps are
held at their first instruction. -/
def State.tryPlace (s : State) (core : Nat) : DevRes :=
  match s.block core with
  | none => .refused s
  | some b =>
    let l := b.launch
    match s.objWords core l.ctx l.stackObj [950] with
    | .error f =>
      match s.devFails l.ctx l.sys f (devRecord f (objVa (s.ctxDesc l.ctx [100]).objt l.stackObj) .read (l.whose core 0)) with
      | .refused s1 => .done (s1.releaseBlock core b (some f))
      | r => r
    | .ok ws =>
      let e := objOfWords ws
      let s0 := s.touchObj core l.ctx l.stackObj [950]
      match stackFault e with
      | some f => .done (s0.releaseBlock core b (some f))
      | none =>
        let area (w off : Nat) : Addr := e.base + BitVec.ofNat 64 (e.len * (64 * l.block.toNat + w) + off)
        let zeros := b.warps.map (fun w => (area w.num 0xFFC00, List.replicate 32 (0 : Byte))) ++ [(area 0 0xFFC20, List.replicate 32 0)]
        match s0.tryDevWrites l.ctx l.sys (l.whose core 0) (if b.warps.any Warp.started then [] else zeros) with
        | .waits s1 since => .waits s1 since
        | r => .done ((r.state).releaseBlock core b none)

/-- The same, now or when the pages become resident. -/
def State.placeCheck (s : State) (core : Nat) : State :=
  (s.tryPlace core).orHold (.place core)

/-- A block that arrives on its core: its warps are held until its placement check is done, and those of the pending sets wait from
now on (R332, R432). -/
def Block.held (b : Block) (clock : Word64) : Block :=
  { b with
    warps := b.warps.map (fun w => { w with faultWait := w.life == .live, faultSince := clock, lastIssue := clock })
    quads := b.quads.map (fun q => { q with pending := q.pending.map (fun p => { p with since := clock }) }) }

/-- The entries of a rule table as the dispenser reads them, each with its own translation (R330, R397). -/
def State.tableAt (s : State) (core : Nat) (l : Launch) (va : Addr) : Nat → Except FaultInfo (List Byte × State)
  | 0 => .ok ([], s)
  | n + 1 => do
    let lf ← s.translate l.ctx l.sys .read va [600]
    let bs ← s.readLoc core 0 (s.placeAt lf) 64
    let r ← ((s.touch none l.ctx va [600]).visit false (s.placeAt lf) 64).tableAt core l (va + 64) n
    .ok (bs ++ r.1, r.2)

/-- Loads the rule table at placement; any failure leaves every entry disabled (spec 16 R397, R330). -/
def State.loadRules (s : State) (core : Nat) : State :=
  match s.block core with
  | none => s
  | some b =>
    let l := b.launch
    if l.rule = 0 then s
    else
      match s.tableAt core l l.rule 64 with
      | .error _ => s
      | .ok (bs, s1) =>
        if anyMalformed 64 bs then s
        else
          let b1 := b.installRules bs
          (s1.setBlock core b1).measureTable l.ctx b1.rules

/-- cr.stagger of a block on a core: s, and w × s in units of 64 cycles (R44, R127). -/
def staggerReg (shape : Word32) (core : Nat) : Word32 :=
  let k := shapeStagger shape
  BitVec.ofNat 32 (k + 2 ^ 8 * (core / 40 * k))

/-- Places one block of a grid on a core (R330). -/
def State.placeBlock (s : State) (l : Launch) (entry : Addr) (core : Nat) : State :=
  let b := (Block.start l entry (staggerReg l.shape core) none).held s.clock
  let s1 : State := { s with cores := s.cores ++ [{ num := core, block := b }] }
  ((s1.obtainTag core).loadRules core).placeCheck core

/-! ### Run queues (R326 to R329) -/

/-- The head of a run queue: context and queue, place of its QCB and the QCB, record, effective priority, cycles since its
enqueue time, and the step of its enqueue. -/
structure QueueHead where
  ctx : Nat
  queue : Nat
  qpa : DevPlace
  qcb : Qcb
  rcd : Addr
  prio : Nat
  age : Nat
  enq : Nat

/-- Effective priority of a record of priority `p` that has waited `age` cycles: one more every 2 ms of 4,500,000 cycles (R328). -/
def effectivePrio (p age : Nat) : Nat := min 7 (p + age / 4500000)

/-- The PRIO of a head record: as the dispensers hold it for a grid in flight, or as the record has it; of one that cannot be read
now, that of its queue (R322, R328). -/
def State.headPrio (s : State) (ctx q : Nat) (rcd : Addr) : Nat :=
  match s.grids.find? (fun g => g.record == rcd && g.ctx == ctx && g.commit.isNone) with
  | some g => (g.raw.getD 30 0).toNat % 8
  | none =>
    match s.devTranslate ctx true .read rcd with
    | .ok d => s.readAt d 30 1 % 8
    | .error _ => q

/-- A device access of queue memory that failed: a record is posted, and the ring is skipped until it may be tried again (R328,
R343, R505), also where the page refuses the access (log entry 78); one that DRAM holds back is tried again with the next event. -/
def State.skipRing (s : State) (ctx q : Nat) (va : Addr) (k : AccKind) (f : FaultInfo) : State :=
  if f.cls == 0 then s else (s.postFault ctx false (devRecord f va k)).holdEvent (.party ctx (.queue ctx q))

/-- The head record of run queue `q` of a context, if its ring is served and not empty. -/
def State.headOf (s : State) (ctx q : Nat) : State × Option QueueHead :=
  let qva := s.qcbVa ctx q
  if !s.mayTry (.queue ctx q) then (s, none)
  else
    let s0 := s.trying (.queue ctx q)
    match s0.devTranslate ctx false .read qva with
    | .error f => (s0.skipRing ctx q qva .read f, none)
    | .ok qpa =>
      let c := s0.readQcb qpa
      let s1 := s0.devTouch ctx qva
      if !c.ok || c.head == c.tail then (s1, none)
      else
        match s1.devTranslate ctx false .read (c.entryVa c.head 8) with
        | .error f => (s1.skipRing ctx q (c.entryVa c.head 8) .read f, none)
        | .ok ea =>
          let rcd : Addr := BitVec.ofNat 64 (s1.readAt ea 0 8 % 2 ^ 55)
          let time := ((s1.queueTimes.find? (fun x => x.1 == ctx && x.2.1 == rcd)).map Prod.snd).map Prod.snd
          let age := (s1.clock - (time.map Prod.fst).getD s1.clock).toNat
          (s1.devTouch ctx (c.entryVa c.head 8),
            some { ctx := ctx, queue := q, qpa := qpa, qcb := c, rcd := rcd, prio := effectivePrio (s1.headPrio ctx q rcd) age, age := age,
                   enq := (time.map Prod.snd).getD s1.tick })

/-- The head is considered before another: higher effective priority, then the earlier enqueue time (R328). -/
def QueueHead.before (a b : QueueHead) : Bool := b.prio < a.prio || (a.prio == b.prio && b.age ≤ a.age)

/-- A head in its place in the order. -/
def insertHead (h : QueueHead) : List QueueHead → List QueueHead
  | [] => [h]
  | x :: r => if x.before h then x :: insertHead h r else h :: x :: r

/-- The heads of every context that is scheduled and whose descriptor is in force, in order (R328, R378, R454). The descriptors
that this has read stay cached. -/
def State.queueHeads (s : State) : State × List QueueHead :=
  let cs := (List.range 64).filter (fun c => s.host.ctxen.getLsbD c)
  let qs := (cs.filter (fun c => (s.ctxDesc c [100]).ok)).flatMap (fun c => (List.range 8).map (fun q => (c, q)))
  let s0 : State := { s with descCache := addAll s.descCache (cs.map (fun c => (c, s.ctxDesc c [100]))) }
  qs.foldl (fun r x =>
    match r.1.headOf x.1 x.2 with
    | (s1, some h) => (s1, insertHead h r.2)
    | (s1, none) => (s1, r.2)) (s0, [])

/-- Removes the head entry of a ring: HEAD advances and NEXT returns to 0 (R329). -/
def State.popHead (s : State) (h : QueueHead) : State :=
  let s1 := (s.writeAt h.qpa 16 (leBytes 4 ((h.qcb.head + 1) % 2 ^ 32))).writeAt h.qpa 24 (leBytes 4 0)
  let i := s.queueTimes.findIdx (fun x => x.1 == h.ctx && x.2.1 == h.rcd)
  { s1 with queueTimes := s.queueTimes.eraseIdx i }

/-- Writes a record's state code and, given one, its join counter; a page that refuses them drops them (R329, R505). -/
def State.markRecord (s : State) (ctx : Nat) (sys : Bool) (rcd : Addr) (code : Nat) (jc : Option Nat) : State :=
  match s.devTranslate ctx sys .rmw rcd with
  | .error f => s.postFault ctx sys (devRecord f rcd .write)
  | .ok d =>
    let s0 := s.devTouch ctx rcd
    let s1 := match jc with
      | some n => s0.writeAt d 16 (leBytes 4 n)
      | none => s0
    s1.setCode d code

/-- What serving a head comes to: progress; the next head is considered; or cores are held for it (R328, R43). -/
inductive Served where
  | progress (s : State)
  | tryNext (s : State)
  | holds

/-- A record that may not run is removed with STATUS 0x10 (R328, R453). -/
def State.rejectHead (s : State) (h : QueueHead) (sys : Bool) : Served := .progress ((s.popHead h).markRecord h.ctx sys h.rcd 0x10 none)

/-- A read of a head's record or frame failed (R328, R505); one that must wait for another access is made again (class 0). -/
def State.headFault (s : State) (h : QueueHead) (sys : Bool) (va : Addr) (f : FaultInfo) : Served :=
  let s1 := s.postFault h.ctx sys (devRecord f va .read)
  if f.cls == 0 then .tryNext s
  else if f.replayable then .tryNext (s1.holdEvent (.party h.ctx (.queue h.ctx h.queue)))
  else
    let s2 := s1.popHead h
    .progress (match s2.devTranslate h.ctx sys .write h.rcd with
      | .ok d => s2.setCode d 0x10
      | .error _ => s2)

/-! ### Grids (R329, R330) -/

/-- The launch facts of block `k` of a grid (R122, R322). -/
def Launch.ofRec (r : Rec) (rcd : Addr) (ctx prio k : Nat) : Launch :=
  let g := recG r.shape
  { record := rcd, cont := none, block := BitVec.ofNat 32 k, nblocks := BitVec.ofNat 32 r.nb, gang := BitVec.ofNat 32 (k / g),
    rank := k % g, gsize := g, ctx := ctx, prio := prio, recPrio := r.prio, coop := r.coop, sys := r.sys, frame := r.frame,
    regs := shapeRegs r.shape, nwarps := shapeWarps r.shape, tiles := r.tiles, shape := r.shape, stko := r.stko,
    descBase := r.desc, dcnt := r.dcnt, rule := r.rule }

/-- Another block of the context holds the stack bytes of a block: one that is resident, or saved and not the block itself (R208). -/
def State.stackHeld (s : State) (l : Launch) : Bool :=
  s.cores.any (fun c => c.block.launch.ctx == l.ctx && c.block.launch.stackObj == l.stackObj && c.block.launch.block == l.block) ||
    s.savedBlocks.any (fun x => x.ctx == l.ctx && x.stko == l.stackObj && x.block == l.block && x.record != l.record)

/-- The first pop: state 0x03, JC counts the blocks, and the grid is in flight (R323, R329). -/
def State.startGrid (s : State) (h : QueueHead) (r : Rec) (raw : List Byte) : State :=
  let s1 := s.markRecord h.ctx r.sys h.rcd 3 (some r.nb)
  { s1 with grids := s1.grids ++ [{ record := h.rcd, enqueued := h.enq, raw := raw, ctx := h.ctx, sys := r.sys, succ := r.succ, placedAt := s.clock, tags := [],
                                    commit := if r.nb = 0 then some (implicitCommit []) else none }] }

/-- Claims and places blocks `k` to `k + n − 1` on the cores of their gangs' groups (R329, R330). -/
def State.placeBlocks (s : State) (h : QueueHead) (r : Rec) (ks : List (Nat × Nat)) (next : Nat) : State :=
  let s1 := if r.nb ≤ next then s.popHead h else s.writeAt h.qpa 24 (leBytes 4 next)
  ks.foldl (fun s x => s.placeBlock (Launch.ofRec r h.rcd h.ctx h.prio x.1) r.code x.2) s1

/-- Serves a grid record whose next block is `k` (R328, R329). -/
def State.serveGrid (s : State) (die core : Nat) (h : QueueHead) (r : Rec) (raw : List Byte) (fresh : Bool) (k : Nat) : Served :=
  let g := recG r.shape
  let start (s : State) : State := if fresh then s.startGrid h r raw else s
  if r.nb ≤ k then .progress (start (s.popHead h))
  else
    let whole := r.coop && fresh
    let next := if whole then r.nb else min r.nb (g * (k / g + 1))
    let gangs := if whole then (r.nb + g - 1) / g - k / g else 1
    let groups := if whole then s.fitGroups g core 0 320 else s.fitGroups g core (80 * die) (80 * die + 80)
    let ks := (List.range (next - k)).map (fun i => (k + i, groups.getD ((k + i) / g - k / g) 0 + (k + i) % g))
    if ks.any (fun x => s.stackHeld (Launch.ofRec r h.rcd h.ctx h.prio x.1)) then .tryNext s
    else if groups.length < gangs then (if whole then .holds else .tryNext s)
    else .progress ((start s).placeBlocks h r ks next)

/-! ### Continuations (R446) -/

/-- A frame of a set: its address, its header, its tags, and how many of them are pending. -/
structure Member where
  frame : Addr
  header : List Byte
  tags : List TagRef
  pending : Nat

/-- Reads the frames' headers and tag lists. -/
def State.readMembers (s : State) (ctx : Nat) (sys : Bool) : List Addr → Except FaultInfo (List Member)
  | [] => .ok []
  | a :: r => do
    let h ← (s.frameAt ctx sys a).read 0x40 64
    let t ← (s.frameAt ctx sys a).read 0x400 64
    let rest ← s.readMembers ctx sys r
    let tagAt (i : Nat) : Option TagRef := TagRef.ofWord (bytesNat t (4 * i) 4)
    .ok ({ frame := a, header := h, tags := (List.range 16).filterMap tagAt,
           pending := ((List.range 15).filterMap (fun i => tagAt (i + 1))).length } :: rest)

/-- The frames of the set that a frame leads, itself first (R507). -/
def State.setFrames (s : State) (ctx : Nat) (sys : Bool) (a : Addr) : Except FaultInfo (List Addr) := do
  let h ← (s.frameAt ctx sys a).read 0x51 1
  if leNat h % 2 = 0 then .ok [a]
  else
    let m := min 319 (leNat (← (s.frameAt ctx sys a).read 0xA000 8))
    let l ← (s.frameAt ctx sys a).read 0xA008 (8 * m)
    .ok (a :: (List.range m).map (fun i => BitVec.ofNat 64 (bytesNat l (8 * i) 8 % 2 ^ 55)))

/-- A member's gang. -/
def Member.gang (m : Member) : Nat := bytesNat m.header 12 4

/-- A block whose pending list is full is placed only where one of its tags was issued (R445). -/
def State.memberFits (s : State) (m : Member) (base : Nat) : Bool :=
  m.pending < 15 || m.tags.any (fun t => t.source == s.sourceOf (galleryOf base))

/-- A fit group for each gang of a set, none of them used twice. -/
def assignGroups (ok : Nat → Nat → Bool) : List Nat → List Nat → Option (List (Nat × Nat))
  | [], _ => some []
  | g :: gs, groups =>
    match groups.find? (ok g) with
    | none => none
    | some b => (assignGroups ok gs (groups.filter (fun x => x != b))).map (fun l => (g, b) :: l)

/-- Restores one block (R446). -/
def State.restoreMember (s : State) (h : QueueHead) (sys : Bool) (lead : Addr) (m : Member) (base : Nat) : Except FaultInfo (Nat × Block) := do
  let l0 := Launch.ofHeader m.header h.prio 0 (if m.frame == lead then some h.rcd else none)
  let rule := ((s.grids.find? l0.ofGrid).map (fun g => (Rec.ofBytes (g.raw ++ List.replicate 4 0)).rule)).getD 0
  let l : Launch := { l0 with rule := rule }
  let core := base + l.rank
  let b ← s.restoreBlock core l (s.frameAt h.ctx sys m.frame)
  .ok (core, b.held s.clock)

/-- The launch facts of a member's block, for the checks before it is restored. -/
def Member.launch (m : Member) : Launch := Launch.ofHeader m.header 0 0 none

/-- Caches the translations of the pages of a frame (R385). -/
def State.touchFrame (s : State) (ctx : Nat) (a : Addr) : State :=
  s.touchAll none ctx ((List.range 65).map (fun i => (a + BitVec.ofNat 64 (65536 * i), [100])))

/-- Serves a continuation: every block of the set that its frame leads is restored on cores that fit (R446). -/
def State.serveCont (s : State) (core : Nat) (h : QueueHead) (r : Rec) : Served :=
  let got : Except FaultInfo (List Member) := do
    let fs ← s.setFrames h.ctx r.sys r.desc
    s.readMembers h.ctx r.sys fs
  match got with
  | .error f => s.headFault h r.sys r.desc f
  | .ok ms =>
    let shape : Word32 := BitVec.ofNat 32 (bytesNat ((ms.head?.map Member.header).getD []) 20 4)
    let gangs := addAll [] (ms.map Member.gang)
    let ok (g b : Nat) : Bool := (ms.filter (fun m => m.gang == g)).all (fun m => s.memberFits m b)
    if ms.any (fun m => s.stackHeld m.launch) then .tryNext s
    else
      match assignGroups ok gangs (s.fitGroups (recG shape) core 0 320) with
      | none => if ms.length = 1 then .tryNext s else .holds
      | some bs =>
        let base (m : Member) : Nat := ((bs.find? (fun x => x.1 == m.gang)).map Prod.snd).getD 0
        match ms.foldlM (fun acc m => (s.restoreMember h r.sys r.desc m (base m)).map (fun x => acc ++ [x])) [] with
        | .error f => s.headFault h r.sys r.desc f
        | .ok xs =>
          let s1 := (s.popHead h).markRecord h.ctx r.sys h.rcd 3 (some 1)
          let s2 := xs.foldl (fun s x => s.putRestored x.1 x.2) s1
          let s3 := ms.foldl (fun s m => (s.touchFrame h.ctx m.frame).clearFrame h.ctx r.sys m.frame) s2
          .progress (xs.foldl (fun s x => s.placeCheck x.1) s3)

/-! ### DISPENSE -/

/-- Serves one head (R328). The record is read under the P rule of its own SYS bit (R505). -/
def State.serveHead (s : State) (die core : Nat) (h : QueueHead) : Served :=
  match s.devTranslate h.ctx false .rmw (s.qcbVa h.ctx h.queue) with
  | .error f => .tryNext (s.skipRing h.ctx h.queue (s.qcbVa h.ctx h.queue) .write f)
  | .ok _ =>
    match (if h.qcb.nxt = 0 then none else s.grids.find? (fun g => g.record == h.rcd && g.ctx == h.ctx && g.commit.isNone)) with
    | some g => s.serveGrid die core h (Rec.ofBytes (g.raw ++ List.replicate 4 0)) g.raw false h.qcb.nxt
    | none =>
      match s.devTranslate h.ctx true .read h.rcd with
      | .error f => s.headFault h false h.rcd f
      | .ok d0 =>
        let sys := (s.readAt d0 30 1).testBit 4
        match s.devTranslate h.ctx sys .read h.rcd with
        | .error f => s.headFault h sys h.rcd f
        | .ok d =>
          let raw := s.readVia d.via d.pa 60
          let r := Rec.ofBytes (raw ++ List.replicate 4 0)
          if s.codeAt d != 0x02 || r.malformed || h.rcd.toNat % 64 != 0 then s.rejectHead h sys
          else if r.cont then s.serveCont core h r
          else s.serveGrid die core h r raw true h.qcb.nxt

/-- Considers the heads in order until one is served or holds cores. -/
def State.serveHeads (s : State) (die core : Nat) : List QueueHead → State
  | [] => s
  | h :: r =>
    match s.serveHead die core h with
    | .progress s1 => s1
    | .tryNext s1 => s1.serveHeads die core r
    | .holds => s

/-- DISPENSE: the dispenser of a die, which has a fit core, serves the run queues once; placement begins at `core` (R328). -/
def execDispense (die core : Nat) (s : State) : Host.Outcome State Fault Refusal :=
  if 4 ≤ die || core / 80 != die || !s.fit core then s.same
  else
    let r := s.queueHeads
    .next (r.1.serveHeads die core r.2)

/-! ### FAULT_RETRY (R343) -/

/-- Tries a device access again; another party tries as its own events come, and a termination goes on by itself. -/
def State.tryEvent (s : State) (e : DevEvent) (since : Word64) : DevRes :=
  match e with
  | .write ctx sys va bs who => s.tryDevWrite ctx sys va bs who
  | .area ctx sys obj slot off bs who => s.tryArea ctx sys obj slot off bs who
  | .post ctx sys r => s.tryPost ctx sys r
  | .qapp ctx rcd => s.tryQapp ctx rcd
  | .joinDec ctx sys va n => s.tryJoin ctx sys va n
  | .enqueue ctx sys va => s.tryEnqueue ctx sys va
  | .flt ctx sys va who => s.tryFlt ctx sys va who
  | .clearFrame ctx sys frame => s.tryClearFrame ctx sys frame
  | .blockDone ctx sys va who => s.tryBlockDone ctx sys va who
  | .withdraw ctx sys e who => s.tryWithdraw ctx sys e who
  | .place core => s.tryPlace core
  | .ended .. => .waits s since
  | .party .. => .waits s since

/-- A suspended event that a try of its own, or another event, ends. -/
def DevEvent.own (e : DevEvent) : Bool :=
  match e with
  | .party .. => true
  | .ended .. => true
  | _ => false

/-- FAULT_RETRY: a warp that waits for a page may issue again from its resume point, a suspended job runs on, a waiting device
access is tried again, 100 µs after it began to wait or after a TLBINV of its context (R286, R343, R435). A warp whose block's placement check waits is held still. -/
def execFaultRetry (party : RetryParty) (s : State) : Host.Outcome State Fault Refusal :=
  match party with
  | .warp core n =>
    if s.devEvents.any (fun e => e.1 == .place core) then s.same
    else .next (s.mapWarp core n (fun w => if s.passed w.faultSince retryCycles then { w with faultWait := false } else w))
  | .job core j =>
    match s.block core with
    | none => s.same
    | some b => .next (s.setBlock core { b with
        jobs := (b.jobs.zipIdx).map (fun x => if x.2 == j && x.1.state == .suspended && s.passed x.1.since retryCycles then { x.1 with state := .running } else x.1) })
  | .deviceEvent k =>
    match s.devEvents[k]? with
    | none => s.same
    | some (e, t) =>
      if e.own || !s.passed t retryCycles then s.same
      else
        match ({ s with devEvents := s.devEvents.eraseIdx k }).tryEvent e t with
        | .waits s1 since => .next { s1 with devEvents := s1.devEvents.insertIdx k (e, since) }
        | r => .next r.state

end Sys2Proof.Machine
end

