-- ==== Sys2Proof/Machine/Fabric.lean ====
section
/-!
DEFINITION. The fabric instructions, the reduction slots and the events of the viaduct (spec 14 R352 to R377).
What another device does is outside the model: its packets and its answers come as events (log entry 5).
-/
namespace Sys2Proof.Machine

/-! ### Lanes of the fabric instructions (R353, R354) -/

/-- A lane of a fabric access: its virtual address, its aperture address with the peer's HOME, and whether its page is deferred. -/
structure FabLane where
  lane : Nat
  va : Addr
  pa : Nat
  dfr : Bool
  deriving DecidableEq, Repr

/-- The lanes of a fabric access through an object of space pod aperture: the checks of R266, that the page maps the
aperture, then the peer of each lane (R354). -/
def View.fabricLanes (t : View) (f : FormE) (k : AccKind) (red : Bool) (size : Nat) (offs : List (Nat × Int)) :
    Except FaultInfo (List FabLane) := do
  let l := t.blk.launch
  let outside (pa : Nat) : Option FaultInfo := if physRegion pa == .aperture then none else some (flt 0x09 0x07)
  let r ← t.dev.objLanes t.core l.ctx l.sys (objNum f.obj f.ext) [2] k red size offs outside
  eachLane (fun (a : LaneAcc) => do
    let lf ← t.dev.laneWalk l.ctx k a.lane a.va
    if f.x.getLsbD 7 then
      let p := (t.w.rv (f.x.extractLsb' 0 7).toNat a.lane).toNat
      let _ ← require (p < 64) (((flt 0x09 0x08).at a.va).onLane a.lane)
      Except.ok { lane := a.lane, va := a.va, pa := withHome lf.pa (BitVec.ofNat 6 p), dfr := pteD lf.pte : FabLane }
    else Except.ok { lane := a.lane, va := a.va, pa := lf.pa, dfr := pteD lf.pte : FabLane }) r.2

/-- The aperture pages of the lanes that are deferred. -/
def dfrPages (ls : List FabLane) : List Nat := addAll [] ((ls.filter FabLane.dfr).map (fun a => a.pa / 65536))

/-- Caches what the lanes' translations read. -/
def View.touchFab (t : View) (f : FormE) (ls : List FabLane) : View :=
  let l := t.blk.launch
  { t with dev := (t.dev.touchObj t.core l.ctx (objNum f.obj f.ext) []).touchAll (some t.core) l.ctx ((addAll [] (ls.map FabLane.va)).map (fun va => (va, []))) }

/-- The lowest lane whose group the issuing context does not own fails (R368). -/
def View.groupsOwned (t : View) (ls : List FabLane) : Except FaultInfo Unit := do
  let _ ← eachLane (fun (a : FabLane) =>
    require (t.dev.groupEntry t.blk.launch.ctx (grpOf a.pa)).isSome (((flt 0x09 0x09).at a.va).onLane a.lane)) ls
  .ok ()

/-- The place of a memory-kind word as an ordinary access of the warp sees it: this device's own words lie in its memory (R241,
R355). -/
def View.fabPlace (t : View) (a : FabLane) : Loc := t.dev.placeOf a.pa

/-- Whether an access of the lanes' words waits: for a pending FENCE, for the warp's own accesses of them, or for a mode change of
their DRAM (R128, R241, R252). -/
def View.fabBusy (t : View) (ls : List FabLane) (size : Nat) : Bool := ls.any (fun a => t.placeBusy (t.fabPlace a) size)

/-! ### Pushes (R367, R368, R369, R371) -/

/-- The packet of a .topk block at aperture address `pa`: the selected elements with their indices in the chunk, counted
in elements (R369). -/
def View.topkPacket (t : View) (f : FormE) (pa : Nat) : List Push :=
  let f32 := f.typ == 0
  let F := if f32 then fmtF32 else fmtBF16
  let es := if f32 then 4 else 2
  let elem (j : Nat) : Nat :=
    let l := j % 32
    if !t.eff.getLsbD l then 0
    else if f32 then (t.w.rv (f.d.toNat + j / 32) l).toNat
    else (t.w.rv f.d.toNat l).toNat / 2 ^ (16 * (j / 32)) % 2 ^ 16
  let sel := topkSelect F (4 * 2 ^ (f.sub.extractLsb' 1 2).toNat) elem
  match t.dev.groupEntry t.blk.launch.ctx (grpOf pa) with
  | none => []
  | some e =>
    let c : Contribution :=
      { sender := 0, ident := 0, grp := e.grp, epoch := e.epoch, key := e.key, typ := f.typ, chunk := winOff pa / 2048,
        topk := true, words := sel.map (fun j => (winOff pa % 2048 / es + j, BitVec.ofNat 32 (elem j))) }
    [{ dest := homeOf pa, msg := .contribution c, drain := none, sc := false, src := t.fabSrc }]

/-- COLLPUSH (R368, R369): a push with release waits for the warp's earlier events (R366). -/
def execCollpush (f : FormE) (s : State) : Host.Outcome State Fault Refusal :=
  issue (.collpush f) (fun t =>
    let topk := f.sub.getLsbD 0
    let size := if !topk then 4 else if f.typ == 0 then 256 else 128
    let offs := if topk then (t.offsE f).take 1 else t.offsE f
    match t.fabricLanes f .write true size offs with
    | .error e => .fault e
    | .ok ls =>
      match t.groupsOwned ls with
      | .error e => .fault e
      | .ok _ =>
        if !t.mayEnter || (f.ord == 2 && !t.drained) then .wait
        else
          let t1 := t.touchFab f ls
          let pkts :=
            if topk then ls.flatMap (fun a => t.topkPacket f a.pa)
            else t.dev.contribPackets t.blk.launch.ctx f.typ false (ls.map (fun a => (a.pa, t.w.rv f.d.toNat a.lane))) none t.fabSrc
          (t1.setW { t1.w with seq := t1.w.seq + 1, pushes := t1.w.pushes ++ pkts }).enterAfter) s

/-- NETST (R371): one with release or seq_cst waits for the warp's earlier events, and nothing of the warp passes a seq_cst one (R247). -/
def execNetst (f : FormE) (s : State) : Host.Outcome State Fault Refusal :=
  issue (.netst f) (fun t =>
    let n := typWords f.typ
    match t.fabricLanes f .write false (4 * n) (t.offsE f) with
    | .error e => .fault e
    | .ok ls =>
      if !t.mayEnter || (f.ord != 0 && wideScope f.sco && !t.drained) || t.fabBusy ls (4 * n) then .wait
      else
        let t1 := t.touchFab f ls
        let items := ls.map (fun a => (a.pa, leBytes (4 * n) (t.w.rvNat f.d.toNat a.lane n)))
        (t1.setW { t1.w with
          seq := t1.w.seq + 1
          pushes := t1.w.pushes ++ storePackets items (f.ord == 4 && wideScope f.sco) t.fabSrc (dfrPages ls) }).enterAfter) s

/-! ### Reads (R370, R372) -/

/-- The instruction is under way until its lanes are answered; a request goes to each home, and for a pull to each chunk. -/
def View.awaitFabric (t : View) (i : Instr) (pull : Bool) (reg words : Nat) (ls : List FabLane) (send : State → List FabLane → Nat → State) : View :=
  let seq := t.w.seq
  let key (a : FabLane) : Nat := if pull then a.pa / 2048 else (homeOf a.pa).toNat
  let d1 := (groupBy key ls).foldl (fun s g =>
    let pa := (g.headD { lane := 0, va := 0, pa := 0, dfr := false }).pa
    let home := homeOf pa
    let s1 := s.newRequest t.core t.w.num home (if pull then .pull seq (pa / 2048) else .netld seq) none
    if home == s.deviceNo then send s1 g s.nextIdent else s1) t.dev
  let ps := ls.map (fun a => ({ lane := a.lane, va := some a.va, loc := if pull then .remote (homeOf a.pa) a.pa else t.fabPlace a } : LanePlace))
  let o : Op := { seq := seq, pc := t.pc, instr := i, since := t.dev.clock, body := .fabric pull reg words ps (!pull && ls.any FabLane.dfr) }
  { t with dev := d1, w := { t.w with seq := seq + 1, ops := t.w.ops ++ [o] } }

/-- NETLD: requests go to the homes, and v(d) is written when every lane is answered (R372). A read of a deferred word waits for a
commit of the block in progress (R261). -/
def execNetld (f : FormE) (s : State) : Host.Outcome State Fault Refusal :=
  issue (.netld f) (fun t =>
    let n := typWords f.typ
    match t.fabricLanes f .read false (4 * n) (t.offsE f) with
    | .error e => .fault e
    | .ok ls =>
      if (f.ord == 4 && wideScope f.sco && !t.drained) || t.fabBusy ls (4 * n) || (t.blk.commit.isSome && ls.any FabLane.dfr) then .wait
      else .ok ((t.touchFab f ls).awaitFabric (.netld f) false f.d.toNat n ls (fun s g id =>
        { s with netLoads := s.netLoads ++ [{ sender := s.deviceNo, ident := id, lanes := g.map (fun a => (a.lane, physOf a.pa)), size := 4 * n,
                                               deferred := pagesIn (dfrPages g) (g.map FabLane.pa) }] }))) s

/-- COLLPULL: requests go to the homes, and v(d) is written when every lane is answered; with .fin the marks leave at the next
confirmation (R370). A group that the context does not own is the group fault of a push, which R370 does not state for a pull (log
entry 49). -/
def execCollpull (f : FormE) (s : State) : Host.Outcome State Fault Refusal :=
  issue (.collpull f) (fun t =>
    match t.fabricLanes f .read true 4 (t.offsE f) with
    | .error e => .fault e
    | .ok ls =>
      match t.groupsOwned ls with
      | .error e => .fault e
      | .ok _ =>
        if t.w.fence.isSome then .wait
        else
          let epoch (g : List FabLane) : BitVec 16 :=
            ((t.dev.groupEntry t.blk.launch.ctx (grpOf ((g.headD { lane := 0, va := 0, pa := 0, dfr := false }).pa))).map GroupEntry.epoch).getD 0
          let req (g : List FabLane) (fin : Bool) : PullRequest :=
            { sender := t.dev.deviceNo, ident := 0, grp := grpOf ((g.headD { lane := 0, va := 0, pa := 0, dfr := false }).pa), epoch := epoch g,
              lanes := g.map (fun a => (a.lane, winOff a.pa)), fin := fin }
          let t1 := (t.touchFab f ls).awaitFabric (.collpull f) true f.d.toNat 1 ls (fun s g id =>
            { s with pullReqs := s.pullReqs ++ [{ req g false with ident := id }] })
          let fins : List Push :=
            if f.sub.getLsbD 0 then
              (groupBy (fun (a : FabLane) => a.pa / 2048) ls).map (fun g =>
                { dest := homeOf ((g.headD { lane := 0, va := 0, pa := 0, dfr := false }).pa), msg := .fin (req g true), drain := none, sc := false, src := none })
            else []
          .ok (t1.setW { t1.w with pushes := t1.w.pushes ++ fins })) s

/-! ### COLLWAIT (R374) -/

/-- Whether fabric work of the warp is not over: requests without an answer, and captured drains that have not left. -/
def View.fabricBusy (t : View) : Bool :=
  t.dev.requests.any (fun r => r.isOf t.core t.w.num && r.kind.counted) || t.w.pushes.any (fun p => p.drain.isSome)

/-- COLLWAIT: s(sd) receives FS, which is cleared (R374). -/
def execCollwait (f : FormH) (s : State) : Host.Outcome State Fault Refusal :=
  issue (.collwait f) (fun t =>
    if t.fabricBusy then .wait else .ok (t.setW (({ t.w with fs := 0 } : Warp).ws f.sd t.w.fs))) s

/-- COLLWAIT .stat: waits for DONE with the epoch in a status entry (R363, R374). -/
def execCollwaitStat (f : FormH) (s : State) : Host.Outcome State Fault Refusal :=
  issue (.collwaitStat f) (fun t =>
    let a := t.w.rs f.sa
    if a.toNat % 16 != 0 then .fault ((flt 0x0A 0x00).at a)
    else (t.readVa a 16).then (fun t1 bs =>
      let x : Word64 := BitVec.ofNat 64 (bytesNat bs 8 8)
      if x.getLsbD 0 && x.extractLsb' 32 16 == (t.w.rs f.sb).extractLsb' 0 16 then .ok (t1.setW (t1.w.ws f.sd x)) else .wait)) s

/-! ### Reduction slots (R358 to R364) -/

/-- The entry of a group, whoever owns it. -/
def State.homeEntry (s : State) (g : BitVec 8) : Option GroupEntry := s.groups.find? (fun e => e.grp == g)

/-- Whether another context owns an entry. -/
def State.groupForeign (s : State) (g : BitVec 8) (ctx : Nat) : Bool := ((s.homeEntry g).map (fun e => e.ctx != ctx)).getD false

/-- The identity of an operator (R358). -/
def collIdentity (op : Nat) : Word32 :=
  match op with
  | 0 => 0x80000000
  | 1 => 0x80008000
  | 3 | 5 => 0xFF800000
  | 4 | 6 => 0x7F800000
  | 7 => 0x80000000
  | 8 => 0x7FFFFFFF
  | 9 => 0xFFFFFFFF
  | _ => 0

/-- One application of an operator to a slot word (R358). -/
def collApply (op old v : Nat) : Nat :=
  match op with
  | 0 => (fmtF32.addBits old v).val
  | 1 => halfWise (fun x y => (fmtBF16.addBits x y).val) old v
  | 2 => (old + v) % 2 ^ 32
  | 3 => minMaxNan true old v
  | 4 => minMaxNan false old v
  | 5 => (fmtF32.minMax true old v).val
  | 6 => (fmtF32.minMax false old v).val
  | 7 => minMaxTyped true 10 old v
  | 8 => minMaxTyped false 10 old v
  | 9 => old &&& v
  | 10 => old ||| v
  | _ => old ^^^ v

/-- The type code an operator takes (R358). -/
def collType (op : Nat) : BitVec 4 :=
  if op == 1 then 2 else if op == 2 || op == 7 || op == 8 then 10 else if 9 ≤ op then 11 else 0

/-- The non-finite and NaN marks of a value under an operator (R361). -/
def collMarks (op x : Nat) : Bool × Bool :=
  let big (F : FloatFmt) (y : Nat) : Bool × Bool := (F.infBits ≤ y % F.signBit, F.infBits < y % F.signBit)
  if op == 1 then
    let a := big fmtBF16 (x % 2 ^ 16)
    let b := big fmtBF16 (x / 2 ^ 16 % 2 ^ 16)
    (a.1 || b.1, a.2 || b.2)
  else if op == 0 || (3 ≤ op && op ≤ 6) then big fmtF32 x
  else (false, false)

/-- A timeout TMO of a group entry in cycles (R357). -/
def tmoCycles (tmo : Word32) : Nat := tmo.toNat * cyclesPerUs

/-- A slot opened for a key, with its copy of the record (R359). -/
def Slot.open (e : GroupEntry) (epoch : BitVec 16) (chunk : Nat) (now : Word64) : Slot :=
  { grp := e.grp, epoch := epoch, chunk := chunk, entry := e, count := 0, mask := 0, nonFinite := false, nan := false,
    covered := [], words := List.replicate 512 (collIdentity e.op.toNat), pulls := [], fins := 0, delivered := false,
    since := now }

/-- Combines a value with word `i` of a slot (R361). -/
def Slot.applyWord (x : Slot) (i : Nat) (v : Word32) : Slot :=
  let op := x.entry.op.toNat
  let r := collApply op (x.words.getD i 0).toNat v.toNat
  let m := collMarks op v.toNat
  let n := collMarks op r
  { x with
    words := x.words.set i (BitVec.ofNat 32 r), covered := addAll x.covered [i],
    nonFinite := x.nonFinite || m.1 || n.1, nan := x.nan || m.2 || n.2 }

/-- Combines one BF16 element with its half of a word; the other half is left as it is (R369). -/
def Slot.applyHalf (x : Slot) (j : Nat) (v : Word32) : Slot :=
  let i := j / 2
  let sh := 16 * (j % 2)
  let w := (x.words.getD i 0).toNat
  let h := w / 2 ^ sh % 2 ^ 16
  let r := (fmtBF16.addBits h (v.toNat % 2 ^ 16)).val
  let m := collMarks 1 (v.toNat % 2 ^ 16)
  let n := collMarks 1 r
  { x with
    words := x.words.set i (BitVec.ofNat 32 (w - h * 2 ^ sh + r * 2 ^ sh)), covered := addAll x.covered [i],
    nonFinite := x.nonFinite || m.1 || n.1, nan := x.nan || m.2 || n.2 }

/-- Applies one contribution to a slot in lane order and counts it (R361). -/
def Slot.contribute (x : Slot) (c : Contribution) : Slot :=
  let y := c.words.foldl (fun (y : Slot) w =>
    if c.topk && x.entry.op == 1 then y.applyHalf w.1 w.2 else y.applyWord w.1 w.2) x
  { y with count := y.count + 1, mask := y.mask ||| (1#64 <<< c.sender.toNat) }

/-- The second word of a status entry (R363). -/
def Slot.info (x : Slot) (tmo : Bool) : Word64 :=
  BitVec.ofNat 64 (1 + (if tmo then 2 else 0) + (if x.nonFinite then 4 else 0) + (if x.nan then 8 else 0) +
    2 ^ 16 * (x.count % 2 ^ 16) + 2 ^ 32 * x.epoch.toNat)

/-- Whether two slots have one key. -/
def Slot.is (x : Slot) (g : BitVec 8) (epoch : BitVec 16) (chunk : Nat) : Bool := x.grp == g && x.epoch == epoch && x.chunk == chunk

/-- The open slot of a key. -/
def State.slotAt (s : State) (g : BitVec 8) (epoch : BitVec 16) (chunk : Nat) : Option Slot :=
  s.slots.find? (fun x => x.is g epoch chunk)

/-- Replaces the slot of the same key, or opens it. -/
def State.putSlot (s : State) (x : Slot) : State :=
  if (s.slotAt x.grp x.epoch x.chunk).isSome then
    { s with slots := s.slots.map (fun y => if y.is x.grp x.epoch x.chunk then x else y) }
  else { s with slots := s.slots ++ [x] }

/-- Retires a slot: its chunk is marked in the map of its epoch, if that is current, and the slot is freed (R364). -/
def State.retire (s : State) (x : Slot) : State :=
  { s with
    slots := s.slots.filter (fun y => !(y.is x.grp x.epoch x.chunk))
    groups := s.groups.map (fun e =>
      if e.grp == x.grp && e.epoch == x.epoch then { e with retired := addAll e.retired [x.chunk] } else e) }

/-- Sends an answer; one for another device leaves the model (log entry 5). -/
def State.answer (s : State) (dest : BitVec 6) (ident : Nat) (a : Answer) : State :=
  if dest == s.deviceNo then { s with responses := s.responses ++ [{ dest := dest, ident := ident, answer := a }] } else s

/-- The values a delivered slot gives the lanes of a pull (R370). -/
def Slot.pulled (x : Slot) (q : PullRequest) : Answer :=
  .pulled (q.lanes.map (fun l => (l.1, (x.words.getD (l.2 % 2048 / 4) 0).toNat))) false

/-- The answer to a late pull: every lane 0 (R370). -/
def lateAnswer (q : PullRequest) : Answer := .pulled (q.lanes.map (fun l => (l.1, 0))) true

/-- Every destination has finished with a held slot (R364). -/
def Slot.finished (x : Slot) : Bool := x.delivered && x.entry.hold && x.entry.dests &&& ~~~x.fins == 0

/-- A slot whose timer reached TMO in an earlier cycle (R362, R377). -/
def Slot.overdue (x : Slot) (s : State) : Bool := !x.delivered && s.passed x.since (tmoCycles x.entry.tmo + 1)

/-- Delivers a slot (R362): with HOLD = 0 its covered words go to the destinations and it retires at once; with HOLD = 1 the
pulls that wait are answered, and it retires at once when every destination has finished with it (R364). The status goes to
every destination. -/
def State.deliver (s : State) (x : Slot) (tmo : Bool) : State :=
  let d : Delivery :=
    { grp := x.grp, key := x.entry.key, epoch := x.epoch, chunk := x.chunk,
      words := if x.entry.hold then [] else (List.range 512).filterMap (fun i => if x.covered.contains i then some (i, x.words.getD i 0) else none),
      mask := x.mask, info := x.info tmo }
  let s1 := if x.entry.dests.getLsbD s.deviceNo.toNat then { s with deliveries := s.deliveries ++ [d] } else s
  if x.entry.hold then
    let s2 := x.pulls.foldl (fun s q => s.answer q.sender q.ident (x.pulled q)) s1
    let y : Slot := { x with delivered := true, pulls := [], since := s.clock }
    if y.finished then s2.retire y else s2.putSlot y
  else
    let s2 := x.pulls.foldl (fun s q => s.answer q.sender q.ident (lateAnswer q)) s1
    s2.retire x

/-- What the home does with a contribution (R360). -/
inductive Verdict where
  | refused
  | late
  | hold
  | full
  | take (x : Slot)

/-- The checks of R360 in order, and the slot the contribution reaches. A slot already delivered takes nothing more. -/
def State.judge (s : State) (c : Contribution) : Verdict :=
  match s.homeEntry c.grp with
  | none => .refused
  | some e =>
    if e.key != c.key || !e.members.getLsbD c.sender.toNat || collType e.op.toNat != c.typ || (c.topk && 2 ≤ e.op.toNat) || e.wch ≤ c.chunk then .refused
    else if c.epoch < e.epoch || (c.epoch == e.epoch && e.retired.contains c.chunk) then .late
    else if e.epoch < c.epoch then .hold
    else
      match s.slotAt c.grp c.epoch c.chunk with
      | some x => if x.delivered then .late else .take x
      | none => if 8192 ≤ s.slots.length then .full else .take (.open e c.epoch c.chunk s.clock)

/-- The open slot of a key is delivered if its timer has run out: a contribution in the cycle of its expiry still counts (R362, R377). -/
def State.expire (s : State) (g : BitVec 8) (epoch : BitVec 16) (chunk : Nat) : State :=
  match s.slotAt g epoch chunk with
  | some x => if x.overdue s then s.deliver x true else s
  | none => s

/-- Carries out the home's verdict on a contribution that has arrived; unchanged while no slot is free (R360, R361, R365). -/
def State.receiveContribution (s0 : State) (c : Contribution) : Option State :=
  let s := s0.expire c.grp c.epoch c.chunk
  match s.judge c with
  | .refused => some (s.answer c.sender c.ident .refused)
  | .late => some (s.answer c.sender c.ident .late)
  | .hold => some { s with heldContribs := s.heldContribs ++ [(c, s.clock)] }
  | .full => none
  | .take x =>
    let y := x.contribute c
    let s1 := (s.answer c.sender c.ident .accepted).putSlot y
    some (if y.count == y.entry.exp then s1.deliver y false else s1)

/-! ### COLLGRP (R356, R357, R375) -/

/-- The entry that a record's 64 bytes give, when its fields are those of R357; TMO 0 means 2,000. -/
def GroupEntry.ofRecord (g : BitVec 8) (ctx : Nat) (bs : List Byte) : Option GroupEntry :=
  let n (k len : Nat) : Nat := bytesNat bs k len
  let ok := 1 ≤ n 16 2 && n 16 2 ≤ 4096 && n 18 1 < 12 && n 19 1 < 2 && n 22 2 == 0 && n 24 4 ≤ 1000000 && 1 ≤ n 28 4 &&
    n 28 4 ≤ 1024 && n 32 8 < 2 ^ 55 && n 32 8 % 2048 == 0 && n 40 8 < 2 ^ 55 && n 40 8 % 16 == 0 && n 56 8 == 0
  if ok then
    some { grp := g, ctx := ctx, members := BitVec.ofNat 64 (n 0 8), dests := BitVec.ofNat 64 (n 8 8), exp := n 16 2,
           op := BitVec.ofNat 5 (n 18 1), hold := n 19 1 == 1, epoch := BitVec.ofNat 16 (n 20 2),
           tmo := if n 24 4 = 0 then 2000 else BitVec.ofNat 32 (n 24 4), wch := n 28 4, win := BitVec.ofNat 64 (n 32 8),
           stat := BitVec.ofNat 64 (n 40 8), key := BitVec.ofNat 64 (n 48 8), retired := [] }
  else none

/-- The home looks at a held contribution again: it stays held from its arrival on while its epoch is newer, and else meets the
checks of R360; while no slot is free it waits in the ingress (R360, R365). -/
def State.reviewHeld (s : State) (c : Contribution × Word64) : State :=
  match s.judge c.1 with
  | .hold => { s with heldContribs := s.heldContribs ++ [c] }
  | _ => (s.receiveContribution c.1).getD { s with contributions := s.contributions ++ [c.1] }

/-- Installs an entry: the retired map is kept while the epoch stays (R356), contributions that were held for a newer epoch are
looked at again or, held for longer than TMO, refused (R360), and an identical record has no effect (R375). An entry that was free
starts with an empty map, whatever its last epoch (log entry 49). -/
def State.installGroup (s : State) (e : GroupEntry) : State :=
  let old := s.homeEntry e.grp
  let late (c : Contribution × Word64) : Bool := (old.map (fun o => s.passed c.2 (tmoCycles o.tmo + 1))).getD false
  if old.map (fun o => ({ o with retired := [] } : GroupEntry)) == some { e with retired := [] } then s
  else
    let kept := match old with
      | some o => if o.epoch == e.epoch then o.retired else []
      | none => []
    let mine (c : Contribution × Word64) : Bool := c.1.grp == e.grp
    (s.heldContribs.filter mine).foldl (fun s c => if late c then s.answer c.1.sender c.1.ident .refused else s.reviewHeld c) { s with
      groups := { e with retired := kept } :: s.groups.filter (fun x => x.grp != e.grp)
      heldContribs := s.heldContribs.filter (fun c => !mine c) }

/-- COLLGRP: installs the record at s(sa) (R375). -/
def execCollgrp (f : FormH) (s : State) : Host.Outcome State Fault Refusal :=
  issue (.collgrp f) (fun t =>
    let a := t.w.rs f.sa
    let g := f.fn.extractLsb' 0 8
    let ctx := t.blk.launch.ctx
    if a.toNat % 64 != 0 then .fault ((flt 0x0A 0x00).at a)
    else (t.readVa a 64).then (fun t1 bs =>
      match GroupEntry.ofRecord g ctx bs with
      | none => .fault (flt 0x02 0x08)
      | some e =>
        if t.dev.groupForeign g ctx then .fault (flt 0x09 0x09)
        else .ok { t1 with dev := t1.dev.installGroup e })) s

/-- COLLGRP .clr: frees the entry (R375). -/
def execCollgrpClr (f : FormH) (s : State) : Host.Outcome State Fault Refusal :=
  issue (.collgrpClr f) (fun t =>
    let g := f.fn.extractLsb' 0 8
    if t.dev.groupForeign g t.blk.launch.ctx then .fault (flt 0x09 0x09)
    else .ok { t with dev := { t.dev with groups := t.dev.groups.filter (fun e => e.grp != g) } }) s

/-! ### Events of the home (R360 to R365) -/

/-- Whether a pull of a source to a chunk was issued before the contribution `c` and has not arrived (R355); the mark of a .fin has
the number of the packet that follows it. -/
def State.pullBefore (s : State) (c : Contribution) : Bool :=
  s.pullReqs.any (fun q => q.sender == c.sender && q.grp == c.grp && q.lanes.any (fun l => l.2 / 2048 == c.chunk) &&
    (if q.fin then q.ident ≤ c.ident else q.ident < c.ident))

/-- CONTRIBUTION_ARRIVAL: packets of one source to one chunk arrive in issue order (R355, R360, R361). -/
def execContributionArrival (packet : Src Contribution) (s : State) : Host.Outcome State Fault Refusal :=
  match packet with
  | .queued k =>
    match s.contributions[k]? with
    | none => s.same
    | some c =>
      if s.pullBefore c || (s.contributions.take k).any (fun x => x.sender == c.sender && x.grp == c.grp && x.chunk == c.chunk) then s.same
      else
        match ({ s with contributions := s.contributions.eraseIdx k } : State).receiveContribution c with
        | none => s.same
        | some s' => .next s'
  | .outside c =>
    if c.sender == s.deviceNo || c.words.any (fun w => (if c.topk && c.typ == 2 then 1024 else 512) ≤ w.1) then s.same
    else
      match s.receiveContribution c with
      | none => s.same
      | some s' => .next s'

/-- SLOT_TIMEOUT: a slot whose timer has reached TMO is delivered, after what arrived in the cycle of its expiry (R362, R377). -/
def execSlotTimeout (slot : Nat) (s : State) : Host.Outcome State Fault Refusal :=
  match s.slots[slot]? with
  | none => s.same
  | some x => if x.overdue s then .next (s.deliver x true) else s.same

/-- INGRESS_HOLD_TIMEOUT: a contribution held for a newer epoch is refused (R360). -/
def execIngressHoldTimeout (held : Nat) (s : State) : Host.Outcome State Fault Refusal :=
  match s.heldContribs[held]? with
  | none => s.same
  | some (c, t) =>
    match s.homeEntry c.grp with
    | some e =>
      if s.passed t (tmoCycles e.tmo) then .next (({ s with heldContribs := s.heldContribs.eraseIdx held } : State).answer c.sender c.ident .refused)
      else s.same
    | none => .next (({ s with heldContribs := s.heldContribs.eraseIdx held } : State).answer c.sender c.ident .refused)

/-- One step of a delivery in the destination (R362): the next result word, and after the last the status entry. The words are written
one at a time in ascending index; their order is not stated (log entry 49). A write that waits for a page tries again as R343 states;
one that is refused is dropped. -/
def State.deliveryStep (s : State) (k : Nat) (d : Delivery) : State :=
  let drop : State := { s with deliveries := s.deliveries.eraseIdx k }
  match s.homeEntry d.grp with
  | none => drop
  | some e =>
    let p : Party := .delivery (e.stat + BitVec.ofNat 64 (16 * d.chunk))
    if e.key != d.key || e.epoch != d.epoch then drop
    else if !s.mayTry p then s
    else
      match d.words with
      | (i, v) :: rest =>
        let next (s' : State) : State := { s' with deliveries := s'.deliveries.set k { d with words := rest } }
        match (s.trying p).tryDevWrite e.ctx false (e.win + BitVec.ofNat 64 (2048 * d.chunk + 4 * i)) (leBytes 4 v.toNat) with
        | .done s' => next s'
        | .refused s' => next s'
        | .waits s' since => s'.holdSince (.party e.ctx p) since
      | [] =>
        let fin (s' : State) : State := { s' with deliveries := s'.deliveries.eraseIdx k }
        match (s.trying p).tryDevWrite e.ctx false (e.stat + BitVec.ofNat 64 (16 * d.chunk)) (leBytes 8 d.mask.toNat ++ leBytes 8 d.info.toNat) with
        | .done s' => fin s'
        | .refused s' => fin s'
        | .waits s' since => s'.holdSince (.party e.ctx p) since

/-- DELIVERY_WRITE: a delivery of another home arrives, or one that has arrived makes its next write (R362, R363, R505). -/
def execDeliveryWrite (delivery : Src Delivery) (s : State) : Host.Outcome State Fault Refusal :=
  match delivery with
  | .outside d => .next { s with deliveries := s.deliveries ++ [{ d with words := d.words.filter (fun w => w.1 < 512) }] }
  | .queued k =>
    match s.deliveries[k]? with
    | none => s.same
    | some d => .next (s.deliveryStep k d)

/-- The chunk of a pull. -/
def pullChunk (q : PullRequest) : Nat := (q.lanes.headD (0, 0)).2 / 2048

/-- A COLLPULL .fin mark at its slot (R364, R370). -/
def State.finMark (s : State) (q : PullRequest) : State :=
  match s.slotAt q.grp q.epoch (pullChunk q) with
  | none => s
  | some x =>
    let y : Slot := { x with fins := x.fins ||| (1#64 <<< q.sender.toNat) }
    if y.finished then s.retire y else s.putSlot y

/-- A pull at its home: answered, waiting at its slot, or `none` while it must wait in the ingress (R365, R370). One of a newer epoch
than the entry's waits there without a limit, which step 6 of R360 gives for contributions only (log entry 49). A pull that
names no group or no chunk of the window is not answered (log entry 5). -/
def State.receivePull (s0 : State) (q : PullRequest) : Option State :=
  let s := s0.expire q.grp q.epoch (pullChunk q)
  if q.fin then some (s.finMark q)
  else
    match s.slotAt q.grp q.epoch (pullChunk q) with
    | some x =>
      if !x.entry.hold then some (s.answer q.sender q.ident (lateAnswer q))
      else if x.delivered then some (s.answer q.sender q.ident (x.pulled q))
      else some (s.putSlot { x with pulls := x.pulls ++ [q] })
    | none =>
      match s.homeEntry q.grp with
      | none => some s
      | some e =>
        if e.wch ≤ (pullChunk q) then some s
        else if q.epoch < e.epoch || (q.epoch == e.epoch && e.retired.contains (pullChunk q)) then some (s.answer q.sender q.ident (lateAnswer q))
        else if e.epoch < q.epoch || 8192 ≤ s.slots.length then none
        else
          let x := Slot.open e q.epoch (pullChunk q) s.clock
          if e.hold then some (s.putSlot { x with pulls := [q] })
          else some ((s.putSlot x).answer q.sender q.ident (lateAnswer q))

/-- Whether a packet of the same source to the same chunk was issued before the pull at place `k` and has not arrived (R355). -/
def State.beforePull (s : State) (k : Nat) (q : PullRequest) : Bool :=
  (s.pullReqs.take k).any (fun x => x.sender == q.sender && x.grp == q.grp && pullChunk x == pullChunk q) ||
    s.contributions.any (fun c => c.sender == q.sender && c.grp == q.grp && c.chunk == pullChunk q && c.ident < q.ident)

/-- PULL_ARRIVAL: packets of one source to one chunk arrive in issue order (R355, R370). -/
def execPullArrival (request : Src PullRequest) (s : State) : Host.Outcome State Fault Refusal :=
  match request with
  | .queued k =>
    match s.pullReqs[k]? with
    | none => s.same
    | some q =>
      if s.beforePull k q then s.same
      else
        match ({ s with pullReqs := s.pullReqs.eraseIdx k } : State).receivePull q with
        | none => s.same
        | some s' => .next s'
  | .outside q =>
    if q.sender == s.deviceNo then s.same
    else
      match s.receivePull q with
      | none => s.same
      | some s' => .next s'

/-- HOLD_RETIRE_TIMEOUT: a held slot retires TMO after its delivery (R364). -/
def execHoldRetireTimeout (slot : Nat) (s : State) : Host.Outcome State Fault Refusal :=
  match s.slots[slot]? with
  | none => s.same
  | some x => if x.delivered && x.entry.hold && s.passed x.since (tmoCycles x.entry.tmo) then .next (s.retire x) else s.same

/-! ### Memory-kind packets at their home (R355, R371, R372) -/

/-- How a packet reaches a word of this device's memory: a word of a deferred page in the vault cache (R234). -/
def packetVia (dfr : List Nat) (pa : Nat) : Via := if dfr.contains (pa / 65536) then .deferred else .plain

/-- The 2 KB segments of a store packet; a drained row may lie in two. -/
def storeSegments (p : NetStore) : List Nat := p.stores.map (fun x => x.1 / 2048)

/-- The request that a packet of this device belongs to has begun to be performed here (R371). -/
def State.begin (s : State) (p : NetStore) : State :=
  { s with requests := s.requests.map (fun r => if p.sender == s.deviceNo && r.ident == p.ident then { r with begun := true } else r) }

/-- Performs the next store of a packet, once no mode change holds its DRAM and no job that a drain follows overlaps it (R128, R255);
after the last the packet is acknowledged. One outside program DRAM is dropped. -/
def State.netStoreStep (s : State) (k : Nat) (p : NetStore) : State :=
  let drop : State := { s with netStores := s.netStores.eraseIdx k }
  match p.stores with
  | [] => drop.answer p.sender p.ident .stored
  | (pa, bs) :: rest =>
    if s.rangeHeld pa bs.length || (p.sender == s.deviceNo && s.netAwaitsJob p) then s
    else if physRegion pa != .dram then drop.answer p.sender p.ident .remErr
    else
      let s1 := (s.begin p).writeVia (packetVia p.deferred pa) pa bs
      { s1 with netStores := s1.netStores.set k { p with stores := rest } }

/-- NETST_ARRIVAL: a packet of another device arrives, or one that has arrived makes its next store; packets of one source to
one segment, reads too, are performed in issue order (R239, R355, R371). -/
def execNetstArrival (request : Src NetStore) (s : State) : Host.Outcome State Fault Refusal :=
  match request with
  | .outside p => if p.sender == s.deviceNo then s.same else .next { s with netStores := s.netStores ++ [p] }
  | .queued k =>
    match s.netStores[k]? with
    | none => s.same
    | some p =>
      let segs := storeSegments p
      if (s.netStores.take k).any (fun x => x.sender == p.sender && meets (storeSegments x) segs) ||
        s.netLoads.any (fun x => x.sender == p.sender && x.ident < p.ident && x.lanes.any (fun l => segs.contains (l.2 / 2048)))
      then s.same
      else .next (s.netStoreStep k p)

/-- Reads the next lane of a load packet (R372); one outside program DRAM, or that meets an error, is dropped (R355). -/
def State.netLoadStep (s : State) (k : Nat) (p : NetLoad) : State :=
  match p.lanes with
  | [] => { s with netLoads := s.netLoads.eraseIdx k }
  | (lane, pa) :: rest =>
    if s.rangeHeld pa p.size then s
    else
    let s1 : State := { s with netLoads := if rest.isEmpty then s.netLoads.eraseIdx k else s.netLoads.set k { p with lanes := rest } }
    if physRegion pa != .dram || s.badMem pa p.size then
      ({ s1 with netLoads := s.netLoads.eraseIdx k } : State).answer p.sender p.ident .remErr
    else (s1.visitMem false (packetVia p.deferred pa) pa p.size).answer p.sender p.ident
      (.loaded [(lane, leNat (s.readVia (packetVia p.deferred pa) pa p.size))])

/-- NETLD_ARRIVAL: the lanes are read one after another, each after earlier packets of the same source to its segment, stores and
loads (R241, R355, R372). -/
def execNetldArrival (request : Src NetLoad) (s : State) : Host.Outcome State Fault Refusal :=
  match request with
  | .outside p =>
    if p.sender == s.deviceNo || 16 < p.size then s.same else .next { s with netLoads := s.netLoads ++ [p] }
  | .queued k =>
    match s.netLoads[k]? with
    | none => s.same
    | some p =>
      let pa := (p.lanes.headD (0, 0)).2
      if s.netStores.any (fun x => x.sender == p.sender && x.ident < p.ident && (storeSegments x).contains (pa / 2048)) ||
        (s.netLoads.take k).any (fun x => x.sender == p.sender && x.lanes.any (fun l => l.2 / 2048 == pa / 2048))
      then s.same
      else .next (s.netLoadStep k p)

/-! ### Answers (R367, R370 to R374) -/

def fsLATE : Word64 := 1
def fsREFUSED : Word64 := 2

/-- Sets bits of a warp's fabric status. -/
def State.setFs (s : State) (r : FabricReq) (bits : Word64) : State := s.mapWarp r.core r.warp (fun w => { w with fs := w.fs ||| bits })

/-- Whether a lane waits for a request: it lies in the request's home, and for a pull in its chunk; `own` is this device's number. -/
def FabricReq.waits (own : BitVec 6) (r : FabricReq) (p : LanePlace) : Bool :=
  match p.loc, r.kind with
  | .remote h pa, .pull _ c => h == r.home && pa / 2048 == c
  | .remote h _, _ => h == r.home
  | .mem _ _, .netld _ => own == r.home
  | _, _ => false

/-- Lanes of a request that are answered take their values. -/
def FabricReq.takeValues (own : BitVec 6) (r : FabricReq) (vs : List (Nat × Nat)) (ps : List LanePlace) : List LanePlace :=
  ps.map (fun p =>
    match vs.find? (fun v => v.1 == p.lane) with
    | some v => if r.waits own p then { p with loc := .got v.2 } else p
    | none => p)

/-- Lanes of a request that are dropped or not answered (R372, R373). -/
def FabricReq.loseLanes (own : BitVec 6) (r : FabricReq) (ps : List LanePlace) : List LanePlace :=
  ps.map (fun p => if r.waits own p then { p with loc := .lost } else p)

/-- The value of a lane of a pull that nobody answered is free (log entry 3). -/
def FabricReq.freeValues (own : BitVec 6) (r : FabricReq) (tick : Nat) (ps : List LanePlace) : List LanePlace :=
  ps.map (fun p => if r.waits own p then { p with loc := .got (Config.pick tick [70, p.lane] % 2 ^ 32) } else p)

/-- A request that is over. -/
def State.dropRequest (s : State) (ident : Nat) : State := { s with requests := s.requests.filter (fun r => r.ident != ident) }

/-- The registers that the lanes of a completed fabric read write. -/
def fabricWrites (reg words : Nat) (ps : List LanePlace) : List RegWrite :=
  ps.flatMap (fun p => (List.range words).map (fun i => .v (reg + i) p.lane (BitVec.ofNat 32 (p.value / 2 ^ (32 * i)))))

/-- Puts back the lanes of a NETLD or COLLPULL, or ends it: its registers are written, or its fault is raised (R266, R372). The
cycles since its issue are a sample (R427). -/
def State.putFabric (s : State) (core n : Nat) (o : Op) (pull : Bool) (reg words : Nat) (ps : List LanePlace) (dfr : Bool) : State :=
  if ps.any LanePlace.pending then s.mapWarp core n (fun w => w.setOp { o with body := .fabric pull reg words ps dfr })
  else
    match s.viewOf core n with
    | none => s
    | some t =>
      let t1 := t.setW (t.w.dropOp o.seq)
      match laneFault o.pc 0 ps with
      | some f => t1.raise f
      | none => (t1.close.writeRegs core n (fabricWrites reg words ps)).sample (galleryOf core) 4 o.since

/-- The fabric read of a warp under way that issued at `seq`: its operation, kind, destination and lanes. -/
def Warp.fabricOp (w : Warp) (seq : Nat) : Option (Op × Bool × Nat × Nat × List LanePlace × Bool) :=
  w.ops.findSome? (fun o =>
    match o.body with
    | .fabric pull reg words ps dfr => if o.seq == seq then some (o, pull, reg, words, ps, dfr) else none
    | _ => none)

/-- Applies a change to the lanes of the read that a request belongs to, and ends the request once none of its lanes waits. -/
def State.updateRead (s : State) (r : FabricReq) (f : List LanePlace → List LanePlace) : State :=
  let fin (ps : List LanePlace) : State := if ps.any (r.waits s.deviceNo) then s else s.dropRequest r.ident
  match (s.block r.core).bind (fun b => b.warp r.warp), r.kind with
  | some w, .load seq =>
    match w.loads.find? (fun ld => ld.seq == seq) with
    | none => s.dropRequest r.ident
    | some ld => (fin (f ld.lanes)).putLoad r.core r.warp { ld with lanes := f ld.lanes }
  | some w, .atomic seq =>
    match w.atomics.find? (fun a => a.op.seq == seq) with
    | some a => (fin (f a.lanes)).putAtomic r.core r.warp a (f a.lanes)
    | none => s.dropRequest r.ident
  | some w, .netld seq | some w, .pull seq _ =>
    match w.fabricOp seq with
    | some (o, pull, reg, words, ps, dfr) => (fin (f ps)).putFabric r.core r.warp o pull reg words (f ps) dfr
    | none => s.dropRequest r.ident
  | _, _ => s.dropRequest r.ident

/-- The answer to a push ends its request; the last answer of its instruction is a sample (R427). -/
def State.endPush (s : State) (r : FabricReq) : State :=
  let s1 := s.dropRequest r.ident
  match r.src with
  | some (_, since) =>
    if r.drain.isSome || s1.requests.any (fun x => x.isOf r.core r.warp && x.src == r.src) then s1 else s1.sample (galleryOf r.core) 4 since
  | none => s1

/-- What an answer does to the request it belongs to; an answer of another kind is none of its answers (R368, R370 to R374). -/
def State.takeAnswer (s : State) (r : FabricReq) (a : Answer) : Option State :=
  match r.kind, a with
  | .push, .accepted => some (s.endPush r)
  | .push, .late => some ((s.setFs r fsLATE).endPush r)
  | .push, .refused => some ((s.setFs r fsREFUSED).endPush r)
  | .store _, .stored => some (s.endPush r)
  | .store _, .remErr => some ((s.setFs r fsREMERR).endPush r)
  | .load _, .loaded vs => some (s.updateRead r (r.takeValues s.deviceNo vs))
  | .load _, .remErr => some (s.updateRead r (r.loseLanes s.deviceNo))
  | .atomic _, .loaded vs => some (s.updateRead r (r.takeValues s.deviceNo vs))
  | .atomic _, .remErr => some (s.updateRead r (r.loseLanes s.deviceNo))
  | .netld _, .loaded vs => some (s.updateRead r (r.takeValues s.deviceNo vs))
  | .netld _, .remErr => some (s.updateRead r (r.loseLanes s.deviceNo))
  | .pull _ _, .pulled vs late => some ((if late then s.setFs r fsLATE else s).updateRead r (r.takeValues s.deviceNo vs))
  | _, _ => none

/-- FABRIC_RESPONSE: the k-th answer on its way in this device, or one of another device to a request sent there (R367, R374).
The answer to a warp whose block is saved stays until the block is restored (R377). -/
def execFabricResponse (response : Src Response) (s : State) : Host.Outcome State Fault Refusal :=
  match response with
  | .queued k =>
    match s.responses[k]? with
    | none => s.same
    | some x =>
      let s1 : State := { s with responses := s.responses.eraseIdx k }
      match s.requests.find? (fun r => r.ident == x.ident) with
      | none => .next s1
      | some r => if r.saved.isSome then s.same else .next ((s1.takeAnswer r x.answer).getD s1)
  | .outside x =>
    match s.requests.find? (fun r => r.ident == x.ident) with
    | none => s.same
    | some r =>
      if r.home == s.deviceNo || r.saved.isSome then s.same
      else
        match s.takeAnswer r x.answer with
        | none => s.same
        | some s' => .next s'

/-- FABRIC_REQUEST_TIMEOUT: no answer within 2 ms, which the warp's fabric status tells (R355, R371 to R374). A store that was not
acknowledged leaves its word: what this device has begun to perform is acknowledged. -/
def execFabricRequestTimeout (request : Nat) (s : State) : Host.Outcome State Fault Refusal :=
  match s.requests[request]? with
  | none => s.same
  | some r =>
    if r.saved.isSome || r.begun || !s.passed r.since (2000 * cyclesPerUs) then s.same
    else
      let s1 := s.setFs r fsTIMEOUT
      match r.kind with
      | .push => .next (s1.dropRequest r.ident)
      | .store _ =>
        .next ({ s1 with netStores := s1.netStores.filter (fun p => !(p.sender == s.deviceNo && p.ident == r.ident)) }.dropRequest r.ident)
      | .pull _ _ => .next (s1.updateRead r (r.freeValues s.deviceNo s.tick))
      | _ => .next (s1.updateRead r (r.loseLanes s.deviceNo))

end Sys2Proof.Machine
end

