-- ==== Sys2Proof/Machine/System.lean ====
section
/-!
DEFINITION. The table, feature and control instructions (spec 15 R387 to R392; spec 06 R124 to R128).
-/
namespace Sys2Proof.Machine

/-! ### The object table (R388, R389) -/

/-- Drops object entries of a context from every core's cache. -/
def State.dropObjs (s : State) (ctx : Nat) (p : Nat → Bool) : State :=
  { s with objCache := s.objCache.filter (fun e => !(e.ctx == ctx && p e.n)) }

/-- Drops the object entries `[lo, hi)` of a context, and what stores have replaced in them (R391, R393). -/
def State.forgetObjs (s : State) (ctx lo hi : Nat) : State :=
  let rest := s.objDropped.filter (fun e => !(e.1 == ctx && lo ≤ e.2.1 && e.2.2.1 ≤ hi))
  { s.dropObjs ctx (fun k => lo ≤ k && k < hi) with objDropped := (ctx, lo, hi, s.tick) :: rest }

/-- OBJSET has written the entry at a place of the object table: what it held before is gone (R381). -/
def State.noteObj (s : State) (pa : Nat) : State :=
  { s with objWritten := (pa, s.tick) :: s.objWritten.filter (fun e => e.1 != pa) }

/-- Steps 3 and 4 of R388, then the write of entry `n`, in one event after the warp's own accesses of it, and its removal from the
caches (R241, R388). -/
def View.putObj (t : View) (n : Nat) (bytes : List Byte) : Res :=
  let l := t.blk.launch
  let dw (bs : List Byte) (k : Nat) : Word64 := BitVec.ofNat 64 (bytesNat bs (8 * k) 8)
  let entry (bs : List Byte) : ObjEntry := objEntry (dw bs 0) (dw bs 1) (dw bs 2) (dw bs 3)
  let e := entry bytes
  if e.v && !e.ok then .fault (flt 0x02 0x09)
  else
    match t.dev.objAt l.ctx n [800] with
    | .error f => .fault f
    | .ok lf =>
      let loc := t.dev.placeAt lf
      if t.placeBusy loc 32 then .wait
      else
        match t.dev.readLoc t.core t.w.num loc 32 with
        | .error f => .fault f
        | .ok now =>
          if !l.sys && (e.lk || (entry now).lk) then .fault (flt 0x09 0x04)
          else
            let t1 := t.writeStack loc bytes
            let va := objVa (t.dev.ctxDesc l.ctx [800]).objt n
            let d := (t1.dev.touch (some t.core) l.ctx va [800]).dropObjs l.ctx (fun k => k == n)
            .ok { t1 with dev := d.noteObj ((loc.pa?).getD lf.pa) }

/-- OBJSET: copies the 32 bytes at s(sb) into entry s(sa) (R388). -/
def execObjset (f : FormH) (s : State) : Host.Outcome State Fault Refusal :=
  issue (.objset f) (fun t =>
    let n := (t.w.rs f.sa).toNat
    let src := t.w.rs f.sb
    if 4096 ≤ n then .fault (flt 0x07 0x04)
    else if src.toNat % 32 != 0 then .fault ((flt 0x0A 0x00).at src)
    else (t.readVa src 32).then (fun t1 bs => t1.putObj n bs)) s

/-- OBJSET .clr: writes an all-zero entry (R388). -/
def execObjsetClr (f : FormH) (s : State) : Host.Outcome State Fault Refusal :=
  issue (.objsetClr f) (fun t =>
    let n := (t.w.rs f.sa).toNat
    if 4096 ≤ n then .fault (flt 0x07 0x04) else t.putObj n (List.replicate 32 0)) s

/-- OBJGET: a relaxed read of doubleword fn [1:0] of entry s(sa), outstanding like a scalar load (R389); on a deferred page it
follows a commit of the block (R261). -/
def execObjget (f : FormH) (s : State) : Host.Outcome State Fault Refusal :=
  issue (.objget f) (fun t =>
    let n := (t.w.rs f.sa).toNat
    let ctx := t.blk.launch.ctx
    if 4096 ≤ n then .fault (flt 0x07 0x04)
    else
      match t.dev.objAt ctx n [800] with
      | .error e => .fault e
      | .ok lf =>
        let va := objVa (t.dev.ctxDesc ctx [800]).objt n
        let dw := (f.fn.extractLsb' 0 2).toNat
        let p : LanePlace := { lane := 0, va := none, loc := t.dev.placeAt { lf with pa := lf.pa + 8 * dw } }
        if pteD lf.pte && t.blk.commit.isSome then .wait
        else .ok ({ t with dev := t.dev.touch (some t.core) ctx va [800] }.pushLoad (.s f.sd) 8 [p] 0 3 false (pteD lf.pte))) s

/-! ### FEAT (R390) -/

/-- A capability word. -/
def State.featWord (s : State) (n : Nat) : Word64 :=
  if n = 0 then 0x3FFF
  else if n = 2 then BitVec.ofNat 64 (0x4800 + 2 ^ 16 * Config.stepping.toNat + 2 ^ 24)
  else if n = 3 then
    BitVec.ofNat 64 (8 * s.galleries + 2 ^ 9 * s.galleries + 2 ^ 15 * s.deviceNo.toNat + 2 ^ 21 * (if s.host.podid.getLsbD 6 then 1 else 0))
  else 0

/-- FEAT (R390). -/
def execFeat (f : FormC) (s : State) : Host.Outcome State Fault Refusal :=
  issue (.feat f) (fun t => .ok (t.setW (t.w.ws f.d.toNat (t.dev.featWord (immNat f.w18 f.imm))))) s

/-! ### TLBINV (R391) -/

/-- The context a TLBINV names: its own, or with .ctx that of s(sd). -/
def View.invContext (t : View) (f : FormH) : Nat :=
  if f.fn.getLsbD 2 then (t.w.rs f.sd).toNat % 64 else t.blk.launch.ctx

/-- Whether a packet of a saved block of a context is on its way in this device. -/
def State.savedTravels (s : State) (ctx : Nat) : Bool :=
  s.requests.any (fun r => (r.saved.map Prod.fst) == some ctx && r.home == s.deviceNo &&
    (s.netStores.any (fun x => x.ident == r.ident) || s.netLoads.any (fun x => x.ident == r.ident) ||
      s.contributions.any (fun x => x.ident == r.ident) || s.pullReqs.any (fun x => x.ident == r.ident)))

/-- Whether an access of a context that has been translated is not yet performed, for a TLBINV of warp `w` of a core: loads, stores,
atomics, tile loads, fabric reads, packets until they are answered, those of saved blocks until they have arrived, rows of jobs, and of
the other warps the pushes and counter operations that their regions hold. Those that the warp holds itself cannot be performed before
its own TLBINV has completed, which does not await them (R391; log entries 53, 76). A BARWAIT translates again at each test. -/
def State.accessesOf (s : State) (ctx core w : Nat) : Bool :=
  s.savedTravels ctx ||
  s.cores.any (fun c => c.block.launch.ctx == ctx &&
    (c.block.jobs.any (fun j => j.state == .running && !j.trans.isEmpty) ||
      s.requests.any (fun r => r.core == c.num && r.saved.isNone) ||
      c.block.warps.any (fun x => !x.loads.isEmpty || !x.buf.isEmpty || x.ops.any (fun o => !o.lanes.isEmpty) ||
        (!(c.num == core && x.num == w) && (!x.pushes.isEmpty || !x.held.isEmpty)))))

/-- The context of a device access that waits. -/
def State.eventContext (s : State) : DevEvent → Option Nat
  | .write ctx _ _ _ _ | .joinDec ctx _ _ _ | .enqueue ctx _ _ | .flt ctx _ _ _ | .clearFrame ctx _ _ | .blockDone ctx _ _ _ => some ctx
  | .withdraw ctx _ _ _ | .party ctx _ | .area ctx _ _ _ _ _ _ | .post ctx _ _ | .qapp ctx _ => some ctx
  | .place core | .ended core _ _ _ => (s.block core).map (fun b => b.launch.ctx)

/-- A warp of a context whose pages have changed retries at once (R343): one that waits after a fault, and one whose enqueue waits. -/
def Warp.retrySince (w : Warp) (due : Word64) : Warp :=
  { w with
    faultSince := if w.faultWait then due else w.faultSince
    wait := match w.wait with
      | some (.queue _) => some (.queue due)
      | x => x }

/-- Everything of a context that waits for a page may retry at once (R343). -/
def State.retryNow (s : State) (ctx : Nat) : State :=
  let due := s.clock - BitVec.ofNat 64 retryCycles
  { s with
    devEvents := s.devEvents.map (fun e => if s.eventContext e.1 == some ctx then (e.1, due) else e)
    cores := s.cores.map (fun c =>
      if c.block.launch.ctx != ctx then c
      else { c with block := { c.block with
        warps := c.block.warps.map (fun w => w.retrySince due)
        jobs := c.block.jobs.map (fun j => if j.state == .suspended then { j with since := due } else j) } }) }

/-- TLBINV: the checks of R391; it completes when the entries are gone and every access of the context that may have used
them has been performed; parties of the context that wait for a page then retry (R343). -/
def View.invalidateBy (t : View) (f : FormH) (drop : Nat → State → State) : Res :=
  let ctx := t.invContext f
  if f.fn.getLsbD 2 && !t.blk.launch.sys then .fault (flt 0x09 0x0A)
  else if t.close.accessesOf ctx t.core t.w.num then .wait
  else .ok (t.through (fun s => (drop ctx s).retryNow ctx))

/-- Drops the cached translations of a context whose pages overlap `[lo, hi)` (R391). -/
def State.dropPages (s : State) (ctx lo hi : Nat) : State :=
  let meets (e : CachedPte) : Bool :=
    e.ctx == ctx && e.vpn * 2 ^ levelShift e.level < hi && lo < (e.vpn + 1) * 2 ^ levelShift e.level
  { s with tlb := s.tlb.filter (fun e => !meets e) }

/-- Drops everything cached of a context (R378, R391). -/
def State.dropContext (s : State) (ctx : Nat) : State :=
  { s.forgetObjs ctx 0 4096 with
    tlb := s.tlb.filter (fun e => e.ctx != ctx)
    descCache := s.descCache.filter (fun e => e.1 != ctx) }

/-- TLBINV .va. -/
def execTlbinvVa (f : FormH) (s : State) : Host.Outcome State Fault Refusal :=
  issue (.tlbinvVa f) (fun t =>
    let lo := (t.w.rs f.sa).toNat
    let n := (t.w.rs f.sb).toNat
    t.invalidateBy f (fun ctx s => if n = 0 then s else s.dropPages ctx lo (lo + n))) s

/-- TLBINV .all. -/
def execTlbinvAll (f : FormH) (s : State) : Host.Outcome State Fault Refusal :=
  issue (.tlbinvAll f) (fun t => t.invalidateBy f (fun ctx s => s.dropContext ctx)) s

/-- TLBINV .obj. -/
def execTlbinvObj (f : FormH) (s : State) : Host.Outcome State Fault Refusal :=
  issue (.tlbinvObj f) (fun t =>
    let lo := (t.w.rs f.sa).toNat
    let n := (t.w.rs f.sb).toNat
    if f.fn.getLsbD 2 && !t.blk.launch.sys then .fault (flt 0x09 0x0A)
    else if 4096 ≤ lo || 4096 < lo + n then .fault (flt 0x07 0x04)
    else t.invalidateBy f (fun ctx s => if n = 0 then s else s.forgetObjs ctx lo (lo + n))) s

/-! ### CSR (R124 to R128, R392) -/

/-- cr.bankmode0 and cr.bankmode1: two bits a bank, from bank `k0` (R126). -/
def bankWord (m : Cells 2) (k0 n : Nat) : Nat :=
  (List.range n).foldl (fun x k => x + (Cells.get m (k0 + k)).toNat * 4 ^ k) 0

/-- A control register (R124). -/
def View.csrRead (t : View) (n : Nat) : Word64 :=
  if n = 0 then t.w.fpflags.setWidth 64
  else if n = 1 then t.w.satflag.setWidth 64
  else if n = 2 then t.blk.rwperm.setWidth 64
  else if n = 3 then BitVec.ofNat 64 (bankWord t.blk.bankMode 0 32)
  else if n = 4 then BitVec.ofNat 64 (bankWord t.blk.bankMode 32 16)
  else if n = 5 then t.blk.stagger.setWidth 64
  else if n < 0x108 then t.dev.vchMode.getD (n - 0x100) 0
  else if t.dev.vchFp.getD (n - 0x108) false then 1 else 0

/-- A write of vch.mode(k): the regions whose bits change are written back and dropped before their accesses go on
(R128). -/
def State.writeVchMode (s : State) (k : Nat) (x : Word64) : State :=
  let old := s.vchMode.getD k 0
  { s with vchMode := s.vchMode.set k x, vchChange := if x == old then s.vchChange else s.vchChange ++ [(k, x ^^^ old)] }

/-- A mode change of stack `k` is in flight: a later write follows it (R128). -/
def State.vchBusy (s : State) (k : Nat) : Bool := s.vchChange.any (fun c => c.1 == k)

/-- A control register receives `x`, with its reserved bits dropped (R6, R72, R125, R128). cr.rwperm changes once every warp of
the block has flushed its window, and writes of one cycle take effect in the order of the warps' numbers: a lower warp does not follow
a higher one before the next cycle (R125); a write of vch.mode ends with its mode change. -/
def View.csrWrite (t : View) (n : Nat) (x : Word64) : Res :=
  let w := t.w
  if n = 0 then .ok (t.setW { w with fpflags := (x.extractLsb' 0 6).setWidth 32 })
  else if n = 1 then .ok (t.setW { w with satflag := (x.extractLsb' 0 1).setWidth 32 })
  else if n = 2 then
    let later := (t.blk.rwLast.map (fun y => y.1 == t.dev.clock && decide (w.num < y.2))).getD false
    if later || (t.blk.setWarp t.w).warps.any (fun y => !y.plan.isEmpty) then .wait
    else .ok (t.setB { t.blk with rwperm := (x.extractLsb' 0 4).setWidth 32, rwLast := some (t.dev.clock, w.num) })
  else if n < 0x108 then
    let k := n - 0x100
    if t.dev.vchBusy k then .wait
    else
      let d := t.dev.writeVchMode k x
      .ok { t with dev := d, w := if d.vchBusy k then { w with outst := some (.vch k) } else w }
  else .ok { t with dev := { t.dev with vchFp := t.dev.vchFp.set (n - 0x108) (x.getLsbD 0) } }

/-- A warp's read of a bank mode register waits for the warp's own mode changes (R294). -/
def View.bankReadWaits (t : View) (n : Nat) : Bool := (n == 3 || n == 4) && t.blk.bankChanges.any (fun c => c.warp == t.w.num)

/-- CSR (R392): s(sd) receives the old value; the bits s(sb) names are replaced by those of s(sa). -/
def execCsr (f : FormH) (s : State) : Host.Outcome State Fault Refusal :=
  issue (.csr f) (fun t =>
    let n := f.fn.toNat
    let m := t.w.rs f.sb
    let old := t.csrRead n
    let done (t : View) : Res := .ok (t.setW (t.w.ws f.sd old))
    if 0x100 ≤ n && !t.blk.launch.sys then .fault (flt 0x09 0x0A)
    else if m == 0 then (if t.bankReadWaits n then .wait else done t)
    else if n = 3 || n = 4 || n = 5 then .fault (flt 0x09 0x0D)
    else
      match t.csrWrite n ((old &&& ~~~m) ||| (t.w.rs f.sa &&& m)) with
      | .ok t1 => done t1
      | r => r) s

/-! ### Events of the vault cache registers (R128) -/

/-- VCH_MODE_CHANGE_COMPLETE: the changed regions' lines are written back and dropped; waiting accesses and a CSR that made
the change go on. -/
def execVchModeChangeComplete (stack : Nat) (s : State) : Host.Outcome State Fault Refusal :=
  if !s.vchBusy stack then s.same
  else
    let wake (w : Warp) : Warp := if w.outst == some (.vch stack) then { w with outst := none } else w
    .next { s with
      vchChange := s.vchChange.filter (fun c => c.1 != stack)
      cores := s.cores.map (fun c => { c with block := { c.block with warps := c.block.warps.map wake } }) }

end Sys2Proof.Machine
end

