-- ==== Sys2Proof/Machine/Host.lean ====
section
/-!
DEFINITION. The host: the management window and its events, boot, attestation, power, service, and soft errors (spec 19 R449
to R461; spec 06 R128; spec 09 R224; spec 18 R437).
-/
namespace Sys2Proof.Machine

/-! ### Ports and semaphores (R449 to R451) -/

/-- The number of a port. -/
def portNo (p : Port) : Nat := if p = .a then 0 else 1

/-- The owner that a semaphore register shows for a port. -/
def ownerOf (p : Port) : BitVec 2 := BitVec.ofNat 2 (portNo p + 1)

/-- Bit k of ERR is set for the writing port (R450). -/
def State.hostErr (s : State) (p : Port) : State := { s with host := { s.host with err := s.host.err ||| BitVec.ofNat 2 (2 ^ portNo p) } }

/-- A write to a management register that needs no semaphore: the registers serve once the firmware runs (R456). -/
def State.served (s : State) (f : State → State) : Host.Outcome State Fault Refusal := if s.host.boot == 3 then .next (f s) else s.same

/-- Port B has acquired semaphore `k` in this very cycle: it is not yet decided against port A (R451). -/
def State.undecided (s : State) (k : Nat) : Bool := s.host.sem.getD k 0 == ownerOf .b && s.host.semB.contains (k, s.clock)

/-- A write that needs semaphore `k` (R450). The port's first one comes in a later cycle than its acquisition (R451). -/
def State.guarded (s : State) (p : Port) (k : Nat) (f : State → State) : Host.Outcome State Fault Refusal :=
  s.served (fun s => if s.undecided k then s else if s.host.sem.getD k 0 == ownerOf p then f s else s.hostErr p)

/-- SEM_ACQUIRE: a free semaphore becomes the port's; of two acquisitions in one cycle port A's succeeds (R451). -/
def execSemAcquire (port : Port) (sem : Nat) (s : State) : Host.Outcome State Fault Refusal :=
  s.served (fun s =>
    if s.host.sem.getD sem 3 == 0 || (port == .a && s.undecided sem) then
      { s with host := { s.host with
          sem := s.host.sem.set sem (ownerOf port)
          semB := if port == .b then (sem, s.clock) :: s.host.semB.filter (fun x => x.1 != sem) else s.host.semB } }
    else s)

/-- SEM_RELEASE: the holder frees its semaphore (R451). -/
def execSemRelease (port : Port) (sem : Nat) (s : State) : Host.Outcome State Fault Refusal :=
  s.served (fun s => if s.host.sem.getD sem 3 == ownerOf port then { s with host := { s.host with sem := s.host.sem.set sem 0 } } else s)

/-- LINK_DOWN: the port's semaphores are released (R451). -/
def execLinkDown (port : Port) (s : State) : Host.Outcome State Fault Refusal :=
  .next { s with host := { s.host with sem := s.host.sem.map (fun x => if x == ownerOf port then 0 else x) } }

/-- ERR_CLEAR (R450). -/
def execErrClear (port : Port) (value : Word64) (s : State) : Host.Outcome State Fault Refusal :=
  let _ := port
  s.served (fun s => { s with host := { s.host with err := s.host.err &&& ~~~(value.extractLsb' 0 2) } })

/-! ### Host memory -/

/-- A range of host memory (R222). -/
def hostRange (pa n : Nat) : Bool := physRegion pa == .host && physRegion (pa + n - 1) == .host

/-- HOST_MEM_ACCESS: an access of the host to a 64-byte line of program DRAM, served at the home slice; a host's store to
its own memory is the same event (R224, R449, log entry 6). A read only leaves its sectors in the home slice. -/
def execHostMemAccess (pa : Nat) (access : HostAccess) (s : State) : Host.Outcome State Fault Refusal :=
  match access with
  | .read n => if 64 < pa % 64 + n then s.same else .next (s.holdRange 0 false pa n)
  | .write bs =>
    if bs.isEmpty || 64 < pa % 64 + bs.length || !(physRegion pa == .dram || physRegion pa == .host) || s.rangeHeld pa bs.length then s.same
    else .next ((s.healMem pa bs.length).writePhys pa bs)

/-! ### Power and boot (R455, R456) -/

/-- The device without its state: what is left is the host's memory and the count of the steps. -/
def State.cleared (s : State) : State :=
  { State.reset with mem := s.mem.filter (fun e => physRegion e.1 == .host), tick := s.tick, next := s.next }

/-- POWER_UP: all state is cleared and the boot ROM waits (R455, R456). -/
def execPowerUp (s : State) : Host.Outcome State Fault Refusal := .next s.cleared

/-- POWER_LOSS: all state is cleared (R455). -/
def execPowerLoss (s : State) : Host.Outcome State Fault Refusal := .next s.cleared

/-- BOOTGO: the ROM starts an attempt; while BOOT reads 1 or 3 the write is ignored and sets ERR (R456). -/
def execBootgo (port : Port) (value : Word64) (s : State) : Host.Outcome State Fault Refusal :=
  if s.host.boot == 1 || s.host.boot == 3 then .next (s.hostErr port)
  else if value.getLsbD 0 then .next { s with host := { s.host with boot := 0, bootBusy := true } }
  else s.same

/-- Bytes of the key and of the signature that follow the body of a firmware image (R456). -/
def imageKeyLen : Nat := 1952
def imageSigLen : Nat := 3309

/-- The image's magic, version, reserved fields and length agree (R456). -/
def imageForm (h : List Byte) (len : Nat) : Bool :=
  let body := bytesNat h 8 4
  bytesNat h 0 4 == 0x57464C59 && bytesNat h 4 2 == 1 && bytesNat h 6 2 == 0 && body % 64 == 0 && body ≤ 2 ^ 26 && bytesNat h 12 52 == 0 &&
    len == 64 + body + imageKeyLen + imageSigLen

/-- The digest of the firmware image that the mailbox names, when the ROM accepts the image (R456). A read may fail on
CXL.cache (log entry 3). -/
def State.acceptImage (s : State) : Option (BitVec 512) :=
  let a := s.host.bootaddr.toNat
  let len := s.host.bootlen.toNat
  let h := Cells.getMany s.mem a 64
  let body := bytesNat h 8 4
  if !hostRange a len || !imageForm h len || Config.pick s.tick [70] % 2 == 1 then none
  else
    let digest := Config.shake256 (Cells.getMany s.mem a (64 + body))
    let key := Cells.getMany s.mem (a + 64 + body) imageKeyLen
    let sig := Cells.getMany s.mem (a + 64 + body + imageKeyLen) imageSigLen
    if Config.shake256 key == Config.fusedDigest && Config.verifies key sig digest then some digest else none

/-- FIRMWARE_VERIFIED: BOOT becomes 1 and the firmware starts, or 2 (R456). -/
def execFirmwareVerified (s : State) : Host.Outcome State Fault Refusal :=
  if !s.host.bootBusy then s.same
  else
    .next (match s.acceptImage with
      | some d => { s with host := { s.host with boot := 1, bootBusy := false, fwDigest := d } }
      | none => { s with host := { s.host with boot := 2, bootBusy := false } })

/-- FIRMWARE_RUNNING (R456). -/
def execFirmwareRunning (s : State) : Host.Outcome State Fault Refusal :=
  if s.host.boot == 1 then .next { s with host := { s.host with boot := 3 } } else s.same

/-! ### Contexts and queues (R452 to R454) -/

/-- CTXEN_WRITE (R454). -/
def execCtxenWrite (port : Port) (value : Word64) (s : State) : Host.Outcome State Fault Refusal :=
  s.guarded port 0 (fun s => { s with host := { s.host with ctxen := value } })

/-- QAPP: a write while QSTAT [8] is set is ignored and sets ERR; the code goes to QSTAT, now or when the pages of the queue are
resident (R452, R505). -/
def execQapp (port : Port) (value : Word64) (s : State) : Host.Outcome State Fault Refusal :=
  s.guarded port 1 (fun s =>
    let c := (value.extractLsb' 55 6).toNat
    let rcd : Addr := (value.extractLsb' 0 55).setWidth 64
    if s.host.qstat.getLsbD 8 then s.hostErr port else (s.tryQapp c rcd).orHold (.qapp c rcd))

/-- The record that the ring entry named by TAIL holds, where the device can read it. -/
def State.tailRecord (s : State) (ctx : Nat) (q : Qcb) : Option Addr :=
  match s.devTranslate ctx false .read (q.entryVa q.tail 8) with
  | .ok e => some (BitVec.ofNat 64 (s.readAt e 0 8 % 2 ^ 55))
  | .error _ => none

/-- TAILINC: one RMW advances TAIL; on a full ring or one that is not served OVF is set instead (R453). One that DRAM holds back is
performed in a later step (R128). -/
def execTailinc (port : Port) (value : Word64) (s : State) : Host.Outcome State Fault Refusal :=
  s.served (fun s =>
    let c := (value.extractLsb' 0 6).toNat
    let k := (value.extractLsb' 6 4).toNat
    if 8 ≤ k then s.hostErr port
    else
      match s.devTranslate c false .rmw (s.qcbVa c k) with
      | .error f => if f.cls == 0 then s else s.hostErr port
      | .ok d =>
        let q := s.readQcb d
        let s1 := s.devTouch c (s.qcbVa c k)
        if !q.ok || q.full then s1.setOvf d
        else
          let times := (s.tailRecord c q).toList.map (fun r => (c, r, s.clock, s.tick))
          { (s1.devTouch c (q.entryVa q.tail 8)).writeAt d 20 (leBytes 4 ((q.tail + 1) % 2 ^ 32)) with queueTimes := s.queueTimes ++ times })

/-- Every block of a context is asked to stop (R440). -/
def State.stopContext (s : State) (ctx : Nat) : State :=
  { s with cores := s.cores.map (fun c => if c.block.launch.ctx == ctx then { c with block := c.block.askStop s.clock .host } else c) }

/-- PRE_START: with [6] set the context's CTXEN bit is cleared and its blocks are asked to stop (R454). What is under way for another
context goes on: PRE is done when all of it is, and keeps a failure of it. -/
def execPreStart (port : Port) (value : Word64) (s : State) : Host.Outcome State Fault Refusal :=
  s.guarded port 2 (fun s =>
    let c := value.extractLsb' 0 6
    if !value.getLsbD 6 then { s with host := { s.host with pre := c } }
    else
      let s1 : State := { s with host := { s.host with
        pre := c, preBusy := true, preSet := addAll s.host.preSet [c.toNat], preDone := false, preFailed := s.host.preBusy && s.host.preFailed,
        ctxen := s.host.ctxen &&& ~~~((1#64) <<< c.toNat) } }
      s1.stopContext c.toNat)

/-! ### Vault cache registers (R128) -/

/-- VCH_MODE_WRITE: in arrival order behind a mode change of the stack that is in flight. -/
def execVchModeWrite (port : Port) (stack : Nat) (value : Word64) (s : State) : Host.Outcome State Fault Refusal :=
  s.guarded port 5 (fun s => if s.vchBusy stack || 8 ≤ stack then s else s.writeVchMode stack value)

/-- VCH_FP_WRITE. -/
def execVchFpWrite (port : Port) (stack : Nat) (value : Word64) (s : State) : Host.Outcome State Fault Refusal :=
  s.guarded port 5 (fun s => { s with vchFp := s.vchFp.set stack (value.getLsbD 0) })

/-! ### Power limit (R459) -/

/-- LIMITER_SAMPLE: the wing's arrays are withheld while its current or the temperature exceeds its limit. -/
def execLimiterSample (wing current temperature : Nat) (s : State) : Host.Outcome State Fault Refusal :=
  if 8 ≤ wing then s.same
  else
    let lim := (s.host.wlim.getD wing 0).toNat
    let hot := (lim != 0 && lim < current) || s.host.tlim.toNat < temperature
    let rest := s.service.withheld.filter (fun w => w != wing)
    .next { s with service := { s.service with withheld := if hot then rest ++ [wing] else rest } }

/-! ### Service (R460) -/

/-- An SVC command: `none` says that its argument is out of range or not allowed. -/
def State.svc (s : State) (p : Port) (f : Service → Option Service) : Host.Outcome State Fault Refusal :=
  s.guarded p 3 (fun s =>
    match f s.service with
    | some v => { s with service := v, host := { s.host with svcFailed := false } }
    | none => { s with host := { s.host with svcFailed := true } })

/-- QUIESCE_GALLERY: the gallery's cores become unfit (R26). -/
def execQuiesceGallery (port : Port) (gallery : Nat) (s : State) : Host.Outcome State Fault Refusal :=
  s.svc port (fun v =>
    if 40 ≤ gallery then none
    else some (if v.out.contains gallery then v else { v with quiescing := addAll v.quiescing [gallery] }))

/-- RETURN_GALLERY: its cores become fit. -/
def execReturnGallery (port : Port) (gallery : Nat) (s : State) : Host.Outcome State Fault Refusal :=
  s.svc port (fun v =>
    if 40 ≤ gallery then none
    else some { v with quiescing := v.quiescing.filter (fun g => g != gallery), out := v.out.filter (fun g => g != gallery) })

/-- SUBSTITUTE: one of the four spares of a core's die that is not in use takes the core's logical number, of a gallery out of
service (R13, R14). -/
def execSubstitute (port : Port) (core spare : Nat) (s : State) : Host.Outcome State Fault Refusal :=
  s.svc port (fun v =>
    if 320 ≤ core || 4 ≤ spare || !v.out.contains (core / 8) || v.substituted.any (fun x => x.2 == spare && x.1 / 80 == core / 80 && x.1 != core) then none
    else some { v with substituted := v.substituted.filter (fun x => x.1 != core) ++ [(core, spare)] })

/-- ROW_REPAIR: accesses to the row wait until the repair is complete. -/
def execRowRepair (port : Port) (stack channel row : Nat) (s : State) : Host.Outcome State Fault Refusal :=
  s.svc port (fun v =>
    if 8 ≤ stack || 32 ≤ channel || 2 ^ 20 ≤ row then none else some { v with rows := addAll v.rows [(stack, channel, row)] })

/-- ROW_REPAIR_COMPLETE. -/
def execRowRepairComplete (stack channel row : Nat) (s : State) : Host.Outcome State Fault Refusal :=
  .next { s with service := { s.service with rows := s.service.rows.filter (fun x => x != (stack, channel, row)) } }

/-- SPAN_RETRAIN: packets wait and are not lost; when a packet arrives is free in any case (log entry 1). -/
def execSpanRetrain (port : Port) (span : Nat) (s : State) : Host.Outcome State Fault Refusal :=
  s.svc port (fun v => if 18 ≤ span then none else some { v with spans := addAll v.spans [span] })

/-- SPAN_RETRAIN_COMPLETE. -/
def execSpanRetrainComplete (span : Nat) (s : State) : Host.Outcome State Fault Refusal :=
  .next { s with service := { s.service with spans := s.service.spans.filter (fun x => x != span) } }

/-! ### Monitors (R427, R450) -/

/-- MONITOR_RESET: a write of MONSEL with [6] set resets the four monitors of the gallery. -/
def execMonitorReset (port : Port) (value : Word64) (s : State) : Host.Outcome State Fault Refusal :=
  s.guarded port 6 (fun s =>
    let g := (value.extractLsb' 0 6).toNat
    let s1 : State := { s with host := { s.host with monsel := value.extractLsb' 0 6 } }
    if !value.getLsbD 6 then s1
    else (List.range 4).foldl (fun s m => s.setMonitor g m { s.monitor g m with words := monitorWords }) s1)

/-- MONCFG: installs a record of host memory on monitor m of the selected gallery; a malformed one changes nothing. -/
def execMoncfg (port : Port) (value : Word64) (s : State) : Host.Outcome State Fault Refusal :=
  s.guarded port 6 (fun s =>
    let a := (value.extractLsb' 0 55).toNat
    if !hostRange a 64 then s
    else
      match Monitor.ofRecord (Cells.getMany s.mem a 64) with
      | some m => s.setMonitor s.host.monsel.toNat (value.extractLsb' 55 2).toNat { m with last := s.clock }
      | none => s)

/-! ### ECC counters and soft errors (R437, R461) -/

/-- ECC_CLEAR: the bits written as 1 are cleared. -/
def execEccClear (port : Port) (counter : Nat) (value : Word64) (s : State) : Host.Outcome State Fault Refusal :=
  s.guarded port 6 (fun s => { s with host := { s.host with
    ecc := s.host.ecc.modify counter (fun x => (x.1 &&& ~~~(value.extractLsb' 0 32), x.2 &&& ~~~(value.extractLsb' 32 32))) } })

/-- The ECC counter of a place (R461). -/
def eccOf : Place → Nat
  | .vreg .. | .sreg .. | .pred .. | .slice .. => 0
  | .scratch .. | .fifo .. => 1
  | .slot .. | .plane .. => 2
  | .cached _ => 3
  | .vaultCached _ => 4
  | .memory _ => 5
  | .packet _ => 6
  | .frame _ => 7

/-- Where an uncorrectable error leaves its mark: a packet is sent again, a cache that does not hold the word has none, and the words of
a save frame are memory's (R355, R437; log entry 85). -/
def State.markOf (s : State) (p : Place) : List Place :=
  match p with
  | .packet _ => []
  | .cached w => if s.home.any (fun e => e.sector == w / 32) then [p] else []
  | .frame w => [.memory w]
  | p => [p]

/-- One more, up to 2^32 − 1. -/
def satInc (x : Word32) : Word32 := if x == 0xFFFFFFFF then x else x + 1

/-- SOFT_ERROR: a corrected error is only counted; an uncorrectable one stays in its word until it is replaced whole (R437,
R461). -/
def execSoftError (place : Place) (correctable : Bool) (s : State) : Host.Outcome State Fault Refusal :=
  let count (x : Word32 × Word32) : Word32 × Word32 := if correctable then (satInc x.1, x.2) else (x.1, satInc x.2)
  .next { s with
    host := { s.host with ecc := s.host.ecc.modify (eccOf place) count }
    bad := if correctable then s.bad else addAll s.bad (s.markOf place) }

/-! ### Attestation (R457) -/

/-- Measurement Mc. -/
def State.measure (s : State) (c : Nat) : BitVec 512 := ((s.measures.find? (fun m => m.ctx == c)).map Measure.value).getD 0

/-- The report over a nonce, with its signature. -/
def State.report (s : State) (nonce : List Byte) : List Byte :=
  let body := nonce ++ leBytes 8 (s.featWord 2).toNat ++ leBytes 8 (s.featWord 3).toNat ++ leBytes 64 s.host.fwDigest.toNat ++
    leBytes 64 Config.translatorDigest.toNat ++ (List.range 64).flatMap (fun c => leBytes 64 (s.measure c).toNat)
  body ++ (Config.attest (leBytes 64 (Config.shake256 body).toNat)).take imageSigLen

/-- ATT: the report is written at the 4 KB-aligned page that follows the nonce. -/
def execAtt (port : Port) (value : Word64) (s : State) : Host.Outcome State Fault Refusal :=
  s.guarded port 7 (fun s =>
    let a := (value.extractLsb' 0 55).toNat
    let page := 4096 * (a / 4096 + 1)
    if !hostRange a 32 || !hostRange page 8192 then s else s.writePhys page (s.report (Cells.getMany s.mem a 32)))

/-! ### Plain registers (R450) -/

/-- An SVC write: the command in [3:0] with its argument; other codes fail (R460). -/
def execSvcWrite (port : Port) (x : Word64) (s : State) : Host.Outcome State Fault Refusal :=
  let n (lo len : Nat) : Nat := (x.extractLsb' lo len).toNat
  match n 0 4 with
  | 1 => execQuiesceGallery port (n 8 6) s
  | 2 => execReturnGallery port (n 8 6) s
  | 3 => execSubstitute port (n 8 8) (n 16 2) s
  | 4 => execRowRepair port (n 8 3) (n 11 5) (n 16 29) s
  | 5 => execSpanRetrain port (n 8 5) s
  | _ => s.svc port (fun _ => none)

/-- REGISTER_WRITE: a write of the register at an offset; one that is read-only or not listed ignores it (R450). -/
def execRegisterWrite (port : Port) (offset : Nat) (value : Word64) (s : State) : Host.Outcome State Fault Refusal :=
  let at8 (base n : Nat) : Bool := base ≤ offset && offset < base + 8 * n && offset % 8 = 0
  let k (base : Nat) : Nat := (offset - base) / 8
  if offset = 0x0010 then execErrClear port value s
  else if offset = 0x0018 then s.guarded port 0 (fun s => { s with host := { s.host with podid := value.extractLsb' 0 7 } })
  else if offset = 0x0020 then .next { s with host := { s.host with bootaddr := value.extractLsb' 0 48 } }
  else if offset = 0x0028 then .next { s with host := { s.host with bootlen := value.extractLsb' 0 32 } }
  else if offset = 0x0030 then execBootgo port value s
  else if at8 0x0040 8 then
    if value = 1 then execSemAcquire port (k 0x0040) s else if value = 0 then execSemRelease port (k 0x0040) s else s.same
  else if offset = 0x0080 then
    s.guarded port 0 (fun s => { s with host := { s.host with ctxbase := value.extractLsb' 0 48 &&& ~~~(0xFFF#48) } })
  else if offset = 0x0088 then execCtxenWrite port value s
  else if offset = 0x0100 then execQapp port value s
  else if offset = 0x0110 then execTailinc port value s
  else if offset = 0x0120 then execPreStart port value s
  else if offset = 0x0200 then execSvcWrite port value s
  else if at8 0x0300 8 then s.guarded port 4 (fun s => { s with host := { s.host with wlim := s.host.wlim.set (k 0x0300) value } })
  else if offset = 0x0340 then s.guarded port 4 (fun s => { s with host := { s.host with tlim := value } })
  else if at8 0x0400 8 then execVchModeWrite port (k 0x0400) value s
  else if at8 0x0440 8 then execVchFpWrite port (k 0x0440) value s
  else if offset = 0x0700 then execMonitorReset port value s
  else if offset = 0x0708 then execMoncfg port value s
  else if at8 0x0800 8 then execEccClear port (k 0x0800) value s
  else if offset = 0x0900 then execAtt port value s
  else s.same

/-- SVCSTAT [47:8]: the galleries in service. -/
def State.serviceMap (s : State) : Nat := (List.range 40).foldl (fun x g => x + if s.service.out.contains g then 0 else 2 ^ (8 + g)) 0

/-- What a port reads of the management window (R450). Before the firmware runs only ID, BOOT and the mailbox respond; the
others read zero. -/
def State.hostRead (s : State) (offset : Nat) : Word64 :=
  let h := s.host
  let k := offset % 256 / 8
  if offset = 0x0000 then s.featWord 2
  else if offset = 0x0008 then h.boot.setWidth 64
  else if offset = 0x0020 then h.bootaddr.setWidth 64
  else if offset = 0x0028 then h.bootlen.setWidth 64
  else if h.boot != 3 || offset % 8 != 0 then 0
  else if offset = 0x0010 then h.err.setWidth 64
  else if offset = 0x0018 then h.podid.setWidth 64
  else if 0x0040 ≤ offset && offset < 0x0080 then (h.sem.getD (k - 8) 0).setWidth 64
  else if offset = 0x0080 then h.ctxbase.setWidth 64
  else if offset = 0x0088 then h.ctxen
  else if offset = 0x0108 then h.qstat.setWidth 64
  else if offset = 0x0120 then
    BitVec.ofNat 64 (h.pre.toNat + 2 ^ 7 * h.preBusy.toNat + 2 ^ 8 * h.preDone.toNat + 2 ^ 9 * h.preFailed.toNat)
  else if offset = 0x0208 then
    let busy := !(s.service.quiescing.isEmpty && s.service.rows.isEmpty && s.service.spans.isEmpty)
    BitVec.ofNat 64 (busy.toNat + 2 * h.svcFailed.toNat + s.serviceMap)
  else if 0x0300 ≤ offset && offset < 0x0340 then h.wlim.getD k 0
  else if offset = 0x0340 then h.tlim
  else if 0x0400 ≤ offset && offset < 0x0440 then s.vchMode.getD k 0
  else if 0x0440 ≤ offset && offset < 0x0480 then if s.vchFp.getD (k - 8) false then 1 else 0
  else if offset = 0x0700 then h.monsel.setWidth 64
  else if 0x0800 ≤ offset && offset < 0x0840 then
    let x := h.ecc.getD k (0, 0)
    x.2 ++ x.1
  else if 0x0A00 ≤ offset && offset < 0x0E00 then (s.monitor h.monsel.toNat ((offset - 0x0A00) / 256)).words.getD k 0
  else 0

end Sys2Proof.Machine
end

