-- ==== Sys2Proof/Machine/Scalar.lean ====
section
/-!
DEFINITION. The scalar instructions, opcodes 0x00 to 0x17 (spec 07 R130 to R140; spec 06 R122).
-/
namespace Sys2Proof.Machine

/-! ### Shared operations -/

/-- Writes s(d). -/
def View.putS (t : View) (d : Nat) (x : Word64) : Res := .ok (t.setW (t.w.ws d x))

/-- A scalar instruction with operand B (R131, R133). -/
def scalarB (f : FormC) (signed : Bool) (op : Word64 → Word64 → Word64) (t : View) : Res :=
  t.putS f.d.toNat (op (t.w.rs f.a.toNat) (t.w.operandB f signed))

/-- A scalar instruction on s(a) and s(b) in the signedness of fn (R134). -/
def scalarFn (f : FormC) (op : Bool → Word64 → Word64 → Word64) (t : View) : Res :=
  t.putS f.d.toNat (op (f.fn == 0) (t.w.rs f.a.toNat) (t.w.rs f.b.toNat))

/-- Quotient of R134: truncated toward zero; a divisor of 0 gives all ones; −2^63 ÷ −1 gives −2^63. -/
def sdivValue (signed : Bool) (x y : Word64) : Word64 :=
  if y = 0 then BitVec.allOnes 64 else if signed then BitVec.ofInt 64 (x.toInt.tdiv y.toInt) else x / y

/-- Remainder of R134: the dividend's sign; a divisor of 0 gives the dividend. -/
def sremValue (signed : Bool) (x y : Word64) : Word64 :=
  if y = 0 then x else if signed then BitVec.ofInt 64 (x.toInt.tmod y.toInt) else x % y

/-- Bits [127:64] of the exact product (R134). -/
def mulhValue (signed : Bool) (x y : Word64) : Word64 :=
  if signed then BitVec.ofInt 64 (x.toInt * y.toInt / 2 ^ 64) else BitVec.ofNat 64 (x.toNat * y.toNat / 2 ^ 64)

/-- The lesser in the named type (R134). -/
def sminValue (signed : Bool) (x y : Word64) : Word64 := if (if signed then x.slt y else x.ult y) then x else y
/-- The greater in the named type (R134). -/
def smaxValue (signed : Bool) (x y : Word64) : Word64 := if (if signed then y.slt x else y.ult x) then x else y

/-- The conditions of SCMP (R135). -/
def scmpValue (c : Nat) (x y : Word64) : Bool :=
  match c with
  | 0 => x == y
  | 1 => x != y
  | 2 => x.slt y
  | 3 => x.sle y
  | 4 => y.slt x
  | 5 => y.sle x
  | 6 => x.ult y
  | 7 => x.ule y
  | 8 => y.ult x
  | _ => y.ule x

/-- The condition of SSEL over the lanes of E (R136). -/
def sselCond (mode : Nat) (e p : LaneMask) : Bool :=
  match mode with
  | 0 => p.getLsbD ((lanes e).headD 0)
  | 1 => e &&& p != 0
  | _ => e &&& ~~~p == 0

/-- The number of one bits. -/
def popcount {n : Nat} (x : BitVec n) : Nat := ((List.range n).filter (fun i => x.getLsbD i)).length

/-- The number of leading zero bits. -/
def clz {n : Nat} (x : BitVec n) : Nat := ((List.range n).takeWhile (fun i => !x.getLsbD (n - 1 - i))).length

/-- The mask of len ones at position pos, of a field specification with pos in [5:0] and len − 1 in [13:8] (R139). -/
def fieldMask (spec : Word64) : Word64 :=
  BitVec.ofNat 64 ((2 ^ ((spec.extractLsb' 8 6).toNat + 1) - 1) * 2 ^ (spec.extractLsb' 0 6).toNat)

/-- The field SBFE extracts (R139). -/
def bfe64 (signed : Bool) (x spec : Word64) : Word64 :=
  let len := (spec.extractLsb' 8 6).toNat + 1
  let fld := (x >>> (spec.extractLsb' 0 6).toNat).toNat % 2 ^ len
  if signed && fld.testBit (len - 1) then BitVec.ofInt 64 ((fld : Int) - 2 ^ len) else BitVec.ofNat 64 fld

/-- The value SBFI leaves in s(d) (R139). -/
def bfi64 (d x spec : Word64) : Word64 :=
  let m := fieldMask spec
  (d &&& ~~~m) ||| ((x <<< (spec.extractLsb' 0 6).toNat) &&& m)

/-- The special registers of R122. -/
def View.special (t : View) (n : Nat) : Word64 :=
  let l := t.blk.launch
  let nat (k : Nat) : Word64 := BitVec.ofNat 64 k
  match n with
  | 0 => nat t.lowLane
  | 1 => nat t.w.num
  | 2 => nat (t.w.num % 4)
  | 3 => l.block.setWidth 64
  | 4 => l.nblocks.setWidth 64
  | 5 => l.gang.setWidth 64
  | 6 => nat l.rank
  | 7 => nat l.gsize
  | 8 => nat t.core
  | 9 => nat (t.core / 8)
  | 10 => nat (t.core / 40)
  | 11 => t.dev.deviceNo.setWidth 64
  | 12 => nat l.ctx
  | 13 => nat l.prio
  | 14 => t.w.runMask.setWidth 64
  | 15 => nat t.w.runPos
  | 16 => nat t.w.depth
  | 17 => t.dev.clock
  | 18 => l.frame
  | 19 => l.record
  | 20 => nat l.regs
  | _ => nat l.nwarps

/-! ### Meanings -/

/-- SADD: s(d) ← s(a) + B (R133). -/
def execSadd (f : FormC) (s : State) : Host.Outcome State Fault Refusal := issue (.sadd f) (scalarB f true (· + ·)) s
/-- SSUB: s(d) ← s(a) − B (R133). -/
def execSsub (f : FormC) (s : State) : Host.Outcome State Fault Refusal := issue (.ssub f) (scalarB f true (· - ·)) s
/-- SMUL: the low 64 bits of s(a) × B (R133). -/
def execSmul (f : FormC) (s : State) : Host.Outcome State Fault Refusal := issue (.smul f) (scalarB f true (· * ·)) s
/-- SMULH: bits [127:64] of the exact product (R134). -/
def execSmulh (f : FormC) (s : State) : Host.Outcome State Fault Refusal := issue (.smulh f) (scalarFn f mulhValue) s
/-- SDIV (R134). -/
def execSdiv (f : FormC) (s : State) : Host.Outcome State Fault Refusal := issue (.sdiv f) (scalarFn f sdivValue) s
/-- SREM (R134). -/
def execSrem (f : FormC) (s : State) : Host.Outcome State Fault Refusal := issue (.srem f) (scalarFn f sremValue) s
/-- SAND (R133). -/
def execSand (f : FormC) (s : State) : Host.Outcome State Fault Refusal := issue (.sand f) (scalarB f true (· &&& ·)) s
/-- SOR (R133). -/
def execSor (f : FormC) (s : State) : Host.Outcome State Fault Refusal := issue (.sor f) (scalarB f true (· ||| ·)) s
/-- SXOR (R133). -/
def execSxor (f : FormC) (s : State) : Host.Outcome State Fault Refusal := issue (.sxor f) (scalarB f true (· ^^^ ·)) s
/-- SSHL: 0 when B ≥ 64 (R133). -/
def execSshl (f : FormC) (s : State) : Host.Outcome State Fault Refusal :=
  issue (.sshl f) (scalarB f false (fun x y => shlW x y.toNat)) s
/-- SSHR: zero fill (R133). -/
def execSshr (f : FormC) (s : State) : Host.Outcome State Fault Refusal :=
  issue (.sshr f) (scalarB f false (fun x y => shrW x y.toNat)) s
/-- SSRA: sign fill (R133). -/
def execSsra (f : FormC) (s : State) : Host.Outcome State Fault Refusal :=
  issue (.ssra f) (scalarB f false (fun x y => sraW x y.toNat)) s
/-- SMIN (R134). -/
def execSmin (f : FormC) (s : State) : Host.Outcome State Fault Refusal := issue (.smin f) (scalarFn f sminValue) s
/-- SMAX (R134). -/
def execSmax (f : FormC) (s : State) : Host.Outcome State Fault Refusal := issue (.smax f) (scalarFn f smaxValue) s
/-- SCMP: bit L of p(d[2:0]) for every lane L of E (R135). -/
def execScmp (f : FormC) (s : State) : Host.Outcome State Fault Refusal :=
  issue (.scmp f) (fun t =>
    let r := scmpValue f.fn.toNat (t.w.rs f.a.toNat) (t.w.rs f.b.toNat)
    .ok (t.setW (t.w.wp (f.d.extractLsb' 0 3).toNat t.eff (if r then 0xFFFFFFFF else 0)))) s
/-- SSEL (R136). -/
def execSsel (f : FormC) (s : State) : Host.Outcome State Fault Refusal :=
  issue (.ssel f) (fun t =>
    let p := t.w.rp (f.fn.extractLsb' 0 3).toNat
    let c := sselCond (f.fn.extractLsb' 4 2).toNat t.eff (if f.fn.getLsbD 3 then ~~~p else p)
    t.putS f.d.toNat (if c then t.w.rs f.a.toNat else t.w.rs f.b.toNat)) s
/-- SMOV (R137). -/
def execSmov (f : FormC) (s : State) : Host.Outcome State Fault Refusal :=
  issue (.smov f) (fun t => t.putS f.d.toNat (t.w.rs f.a.toNat)) s
/-- SLI: the sign-extended immediate (R137). -/
def execSli (f : FormC) (s : State) : Host.Outcome State Fault Refusal :=
  issue (.sli f) (fun t => t.putS f.d.toNat (BitVec.ofInt 64 (immInt f.w18 f.imm))) s
/-- SADDR: (s(a) + (s(b) << fn[2:0])) mod 2^55 (R138). -/
def execSaddr (f : FormC) (s : State) : Host.Outcome State Fault Refusal :=
  issue (.saddr f) (fun t =>
    t.putS f.d.toNat (((t.w.rs f.a.toNat + (t.w.rs f.b.toNat <<< (f.fn.extractLsb' 0 3).toNat)).extractLsb' 0 55).setWidth 64)) s
/-- SCLZ (R137). -/
def execSclz (f : FormC) (s : State) : Host.Outcome State Fault Refusal :=
  issue (.sclz f) (fun t => t.putS f.d.toNat (BitVec.ofNat 64 (clz (t.w.rs f.a.toNat)))) s
/-- SPOPC (R137). -/
def execSpopc (f : FormC) (s : State) : Host.Outcome State Fault Refusal :=
  issue (.spopc f) (fun t => t.putS f.d.toNat (BitVec.ofNat 64 (popcount (t.w.rs f.a.toNat)))) s
/-- SBFE (R139). -/
def execSbfe (f : FormC) (s : State) : Host.Outcome State Fault Refusal :=
  issue (.sbfe f) (fun t => t.putS f.d.toNat (bfe64 (f.fn == 1) (t.w.rs f.a.toNat) (t.w.rs f.b.toNat))) s
/-- SBFI (R139). -/
def execSbfi (f : FormC) (s : State) : Host.Outcome State Fault Refusal :=
  issue (.sbfi f) (fun t => t.putS f.d.toNat (bfi64 (t.w.rs f.d.toNat) (t.w.rs f.a.toNat) (t.w.rs f.b.toNat))) s
/-- SGET: a special register (R122, R140). -/
def execSget (f : FormC) (s : State) : Host.Outcome State Fault Refusal :=
  issue (.sget f) (fun t => t.putS f.d.toNat (t.special (immNat f.w18 f.imm))) s

end Sys2Proof.Machine
end

