-- ==== Sys2Proof/Machine/Warps.lean ====
section
/-!
DEFINITION. The events of warps in their quadrants (spec 13 R332, R333; spec 02 R44, R45, R47; spec 07 R160). When each of them
happens within the spec's bounds is free (log entry 1).
-/
namespace Sys2Proof.Machine

/-! ### Selection (R87, R332) -/

/-- A warp of an exchange does not issue for its 8 cycles (R333). -/
def Quad.resting (q : Quad) (clock : Word64) (n : Nat) : Bool :=
  match q.last with
  | some (_, a, p) => !q.mayExchange clock && (n == a || n == p)
  | none => false

/-- The warp of a quadrant that issues next (R332): a ready one that has not issued for 15 cycles comes first, then one that has not
hinted that it yields (R87); of several the one longest in the active set. -/
def State.selected (s : State) (b : Block) (q : Quad) : Option Nat :=
  let ready := q.active.filter (fun n => b.readyWarp n && !q.resting s.clock n)
  let late (n : Nat) : Bool := ((b.warp n).map (fun w => s.passed w.lastIssue 15)).getD false
  let yields (n : Nat) : Bool := ((b.warp n).map Warp.yielded).getD false
  (ready.find? late).or ((ready.find? (fun n => !yields n)).or ready.head?)

/-- A selection uses up the yield hints of the quadrant (R87). -/
def Block.unyield (b : Block) (q : Quad) : Block :=
  { b with warps := b.warps.map (fun w => if q.active.contains w.num then { w with yielded := false } else w) }

/-- A warp that waits at its next instruction: whether it still does is seen by trying it, which issues nothing. -/
def Block.polls (b : Block) (n : Nat) : Bool := ((b.warp n).map (fun w => w.tries && w.waiting.isSome)).getD false

/-- ISSUE_SELECT: the quadrant of a warp selects it, and it issues next (R332); or it waits at its instruction, and its wait is
tried. A staggered block does not issue (R44). -/
def execIssueSelect (core warp : Nat) (s : State) : Host.Outcome State Fault Refusal :=
  match s.block core with
  | none => s.same
  | some b =>
    let go (b : Block) : State := { s.setBlock core b with curCore := core, curWarp := warp, next := .issue }
    if b.staggered then s.same
    else if b.polls warp then .next (go b)
    else
      match b.quadOf warp with
      | none => s.same
      | some q => if s.selected b q == some warp then .next (go (b.unyield q)) else s.same

/-! ### Long-latency stalls (R333) -/

/-- The view with only what has been outstanding for 200 cycles of the warp's loads, atomics and fabric reads. -/
def View.late (t : View) : View :=
  let old (since : Word64) : Bool := t.dev.passed since 200
  t.setW { t.w with
    loads := t.w.loads.filter (fun ld => old ld.since)
    ops := t.w.ops.filter (fun o => old o.since && (match o.body with
      | .atomic .. => true
      | .fabric .. => true
      | _ => false)) }

/-- Whether the warp waits for one of these. -/
def View.waitsLate (t : View) : Bool :=
  let u := t.late
  if u.w.loads.isEmpty && u.w.ops.isEmpty then false
  else if t.w.clause.isSome then u.opHazard t.decoded
  else
    match (t.w.running.map Split.pc).map t.clauseAt with
    | some (.ok ((h, _), _)) => u.mustWait h || u.guardHeld h
    | _ => false

/-- Cycles since the clock stood at `since`, less a limit. -/
def State.beyond (s : State) (since : Word64) (n : Nat) : Nat := (s.clock - since).toNat - n

/-- For how many cycles the warp in view has been in a long-latency stall; none when it is in none (R333). -/
def View.stallFor (t : View) : Option Nat :=
  let s := t.dev
  let after (since : Word64) (n : Nat) : Option Nat := if s.passed since n then some (s.beyond since n) else none
  if t.w.life != .live then none
  else if t.w.faultWait then some (s.beyond t.w.faultSince 0)
  else
    match t.w.outst, t.w.waiting with
    | some (.commit _ since), _ => after since 0
    | some (.barwait _ _ _ _ _ _ _ since _), _ => after since 201
    | some (.sleep since n), _ => if 256 ≤ n then after since 0 else none
    | some (.vch _), _ => none
    | none, some (since, .long n) => after since n
    | none, some (since, .result) =>
      if !t.waitsLate then none
      else
        let u := t.late.w
        let age := ((u.loads.map LoadOp.since ++ u.ops.map Op.since).map (fun x => s.beyond x 200)).foldl max 0
        some (min age (s.beyond since 0))
    | none, _ => none

/-- LONG_LATENCY_STALL: an active warp that stalls is exchanged with the ready warp pending longest; with none, no exchange
takes place (R333). -/
def execLongLatencyStall (core warp : Nat) (s : State) : Host.Outcome State Fault Refusal :=
  match s.viewOf core warp with
  | none => s.same
  | some t =>
    match t.blk.quadOf warp with
    | none => s.same
    | some q =>
      if t.stallFor.isNone then s.same
      else
        match t.blk.readyPend q with
        | none => s.same
        | some p => .next (s.setBlock core (t.blk.exchange s.clock warp p))

/-- PENDING_WAIT_EXCHANGE: a pending warp that has been ready for 2,048 cycles is exchanged with the warp active longest (R333). -/
def execPendingWaitExchange (core warp : Nat) (s : State) : Host.Outcome State Fault Refusal :=
  match s.block core with
  | none => s.same
  | some b =>
    match b.quads.find? (fun q => q.pending.any (fun p => p.num == warp && s.passed p.since 2048)) with
    | none => s.same
    | some q =>
      match q.active with
      | [] => s.same
      | a :: _ => if b.readyWarp warp then .next (s.setBlock core (b.exchange s.clock a warp)) else s.same

/-! ### What follows as time passes -/

/-- An active set with a free place takes a pending warp, the ready one that has been pending longest or else the one that has been,
which is an exchange (R333, R426). -/
def Block.fillQuad (b : Block) (clock : Word64) (q : Quad) : Option Nat :=
  if 8 ≤ q.active.length || !q.mayExchange clock then none
  else (b.readyPend q).or ((q.pending.map Pend.num).head?)

/-- The same for every quadrant. -/
def Block.fillQuads (b : Block) (clock : Word64) : Block :=
  let moved := b.quads.filterMap (b.fillQuad clock)
  if moved.isEmpty then b
  else
    { b with
      quads := b.quads.map (fun q =>
        match b.fillQuad clock q with
        | some p => q.exchange clock p p
        | none => q)
      warps := b.warps.map (fun w => if moved.contains w.num then w.count 2 1 else w) }

/-- A pending warp that is not ready begins to wait when it is; from then on the backward branches of each active warp count (R45,
R333). -/
def Block.notePending (b : Block) (clock : Word64) : Block :=
  let count (n : Nat) : Nat := ((b.warp n).map Warp.backCount).getD 0
  let note (q : Quad) (p : Pend) : Pend :=
    let old := if b.readyWarp p.num then p.marks.filter (fun m => q.active.contains m.1) else []
    { p with
      since := if b.readyWarp p.num then p.since else clock
      marks := old ++ (q.active.filter (fun a => !old.any (fun m => m.1 == a))).map (fun a => (a, count a)) }
  { b with quads := b.quads.map (fun q => if q.pending.isEmpty then q else { q with pending := q.pending.map (note q) }) }

/-- `n` cycles of time for the warps of a core: those in long-latency stalls count them (R426, counter 1). -/
def State.countStalls (s : State) (core n : Nat) (w : Warp) : Warp :=
  match (s.viewOf core w.num).bind View.stallFor with
  | some k => w.count 1 (min n k)
  | none => w

/-! ### The other events -/

/-- SLEEP_EXPIRY (R160). -/
def execSleepExpiry (core warp : Nat) (s : State) : Host.Outcome State Fault Refusal :=
  .next (s.mapWarp core warp (fun w =>
    match w.outst with
    | some (.sleep since n) => if s.passed since n then { w with outst := none } else w
    | _ => w))

/-- The stagger of a block is over: its delay has passed since its grid's first block was placed (R44, R127). -/
def State.staggerOver (s : State) (b : Block) : Bool :=
  match s.grids.find? b.launch.ofGrid with
  | none => true
  | some g => 64 * (b.stagger.extractLsb' 8 24).toNat ≤ (s.clock - g.placedAt).toNat

/-- STAGGER_EXPIRY (R44). -/
def execStaggerExpiry (core : Nat) (s : State) : Host.Outcome State Fault Refusal :=
  match s.block core with
  | none => s.same
  | some b => if s.staggerOver b then .next (s.setBlock core { b with staggered := false }) else s.same

/-- The instructions that are region entries by themselves, or pass one as they end (R33). -/
def entersRegion : Instr → Bool
  | .region _ | .fence _ | .commit _ | .launch _ | .spawn _ | .join _ | .bararrive _ | .collpush _ | .netst _ | .thand _ | .ttake _ => true
  | _ => false

/-- Whether the warp stands at a region entry: it is ready, and the instruction that it issues next is one (R48; log entry 7). -/
def View.reaches (t : View) : Bool :=
  t.w.ready &&
    (match if t.w.clause.isSome then .ok t else t.fetch with
     | .ok u => entersRegion u.decoded && u.eff != 0
     | _ => false)

/-- Whether the 10 µs of a warp that has been asked to stop are over, without a region entry (R47, R48). -/
def View.mustStop (t : View) : Bool :=
  t.w.life == .live && t.w.stop == .asked && t.w.dead.isNone && t.dev.passed t.w.askedAt (10 * cyclesPerUs) && !t.reaches

/-- PREEMPT_TIMEOUT: a warp asked to stop that has reached no region entry 10 µs after the request rolls back and stops (R47); one that
waits for a retry has been rolled back already (R48, R501). -/
def execPreemptTimeout (core warp : Nat) (s : State) : Host.Outcome State Fault Refusal :=
  match s.viewOf core warp with
  | none => s.same
  | some t =>
    if !t.mustStop then s.same
    else
      let t1 := if t.w.faultWait then t else t.rollback
      .next (t1.setW { t1.w with stop := .stopped }).close

end Sys2Proof.Machine
end

