-- ==== Sys2Proof/Machine/Schedule.lean ====
section
/-!
DEFINITION. What every step does before its transition: what follows by itself happens, time passes, and the transition after it is
chosen: what the spec's bounds make due, what the device has under way in turn, or freely (log entries 1, 7).
-/
namespace Sys2Proof.Machine

/-! ### Time -/

/-- Cycles passed are counted by each block (R426, counter 8). -/
def Block.tickCycles (b : Block) (n : Nat) : Block :=
  { b with counters := Cells.set b.counters 8 (Cells.get b.counters 8 + BitVec.ofNat 64 n) }

/-- Now and then a home slice gives up a sector of its own accord; which and when is free (R224, R234; log entry 17). -/
def State.ageHome (s : State) : State :=
  match s.home with
  | [] => s
  | _ :: _ =>
    let x := Config.pick s.tick [93]
    if x % 2 = 0 then s else s.evict ((s.home[x / 2 % s.home.length]?.map HomeSector.sector).getD 0)

/-- The clock advances by `n` cycles, which the blocks count, and each warp in a long-latency stall (R426). -/
def State.pass (s : State) (n : Nat) : State :=
  let s1 : State := { s with clock := s.clock + BitVec.ofNat 64 n, tick := s.tick + 1 }
  { s1 with cores := s1.cores.map (fun c =>
      { c with block := ({ c.block with warps := c.block.warps.map (s1.countStalls c.num n) }).tickCycles n }) }

/-- Free places of active sets are filled, and pending warps note since when they wait (R45, R333). -/
def State.quadsSettled (s : State) : State :=
  { s with cores := s.cores.map (fun c => { c with block := (c.block.fillQuads s.clock).notePending s.clock }) }

/-! ### What is due (R45, R47, R332, R333) -/

/-- A ready active warp of the quadrant has neither issued nor become ready within 15 cycles: the quadrant's next warp issues (R45). -/
def State.issueDue (s : State) (b : Block) (q : Quad) : Option Nat :=
  let late (w : Warp) : Bool := q.active.contains w.num && w.ready && !q.resting s.clock w.num && s.passed w.lastIssue 15 && s.passed w.polledAt 15
  if b.warps.any late then s.selected b q else none

/-- The exchange that a quadrant owes: for a warp that has been pending and ready for 2,048 cycles, or else for a stall (R333). -/
def State.exchangeDue (s : State) (core : Nat) (b : Block) (q : Quad) : Option Instr :=
  if q.active.isEmpty || q.pending.isEmpty || !q.mayExchange s.clock then none
  else
    match q.pending.find? (fun p => b.readyWarp p.num && s.passed p.since 2048) with
    | some p => some (.pendingWaitExchange core p.num)
    | none =>
      if (b.readyPend q).isNone then none
      else (q.active.find? (fun n => ((s.viewOf core n).bind View.stallFor).isSome)).map (.longLatencyStall core)

/-- What a core owes in this cycle: the try of a warp that waits at its instruction, an issue, an exchange, the stop of a warp whose
time is over, and the save of a set that has stopped. -/
def State.coreDue (s : State) (c : Core) : List Instr :=
  let b := c.block
  let issues := if b.staggered then [] else
    (b.warps.filter (fun w => b.polls w.num && s.passed w.polledAt 1)).map (fun w => Instr.issueSelect c.num w.num) ++
      b.quads.filterMap (fun q => (s.issueDue b q).map (.issueSelect c.num))
  let stops := if b.stopReq.isNone then [] else
    (b.warps.filter (fun w => ((s.viewOf c.num w.num).map View.mustStop).getD false)).map (fun w => Instr.preemptTimeout c.num w.num) ++
      (if s.maySave c then [.saveBlock c.num] else [])
  issues ++ b.quads.filterMap (s.exchangeDue c.num b) ++ stops

/-- The first of what is due; not what the warp that issues in this step owes. -/
def State.due (s : State) : Option Instr :=
  let now : Option Instr := if s.next = .issue then some (.issueSelect s.curCore s.curWarp) else none
  s.cores.findSome? (fun c => (s.coreDue c).find? (fun e => some e != now))

/-! ### What the device has under way -/

/-- The events that end what the warp `w` of a core has under way. -/
def Warp.duties (core : Nat) (w : Warp) : List Instr :=
  (List.range w.loads.length).map (.loadResponse core w.num) ++ (List.range w.buf.length).map (.storePerformed core w.num) ++
    (if w.ops.isEmpty then [] else [.atomicResponse core w.num, .tileComplete core w.num, .xformComplete core w.num, .windowMatch core w.num]) ++
    (if w.fence.isSome then [.fenceComplete core w.num] else []) ++
    (if w.outst.isSome then [.sleepExpiry core w.num, .barwaitObserve core w.num, .barwaitBoundExpiry core w.num] else []) ++
    (if w.faultWait then [.faultRetry (.warp core w.num)] else []) ++ (if w.clause.isSome then [.windowMatch core w.num] else [])

/-- The events that end what a core has under way. -/
def Core.duties (c : Core) : List Instr :=
  let b := c.block
  b.warps.flatMap (Warp.duties c.num) ++
    (List.range b.jobs.length).flatMap (fun j =>
      [.jobStart c.num j, .jobComplete c.num j, .jobSuspend c.num j, .jobFault c.num j, .faultRetry (.job c.num j)]) ++
    (if b.bankChanges.isEmpty then [] else [.bankModeChangeComplete c.num]) ++ (if b.staggered then [.staggerExpiry c.num] else []) ++
    (if b.log.isEmpty then [] else [.cataloguerTake c.num]) ++
    (if b.commit.isSome then [.commitRemoteTimeout (.block c.num), .tagWaitTimeout c.num] else []) ++ [.xformAccept c.num]

/-- The events that end what the device has under way, and the dispensers' turns. -/
def State.duties (s : State) : List Instr :=
  let all (n : Nat) (f : Nat → Instr) : List Instr := (List.range n).map f
  s.cores.flatMap Core.duties ++ all s.grids.length .gridCompletion ++ all s.devEvents.length (fun k => .faultRetry (.deviceEvent k)) ++
    s.cats.flatMap (fun c => (if c.waiting.isEmpty then [] else [.tagGrant c.gallery]) ++ c.timedOut.map (fun t => .tagHoldExpiry c.gallery t.1)) ++
    all s.travelling.length .binPark ++ all s.closes.length (fun k => .closeT (.queued k)) ++ all s.acks.length (fun k => .commitAck (.queued k)) ++
    all s.grids.length (fun k => .commitRemoteTimeout (.grid k)) ++ all s.savedCommits.length (fun k => .commitRemoteTimeout (.saved k)) ++
    all s.contributions.length (fun k => .contributionArrival (.queued k)) ++ all s.slots.length .slotTimeout ++
    all s.slots.length .holdRetireTimeout ++ all s.heldContribs.length .ingressHoldTimeout ++
    all s.deliveries.length (fun k => .deliveryWrite (.queued k)) ++ all s.pullReqs.length (fun k => .pullArrival (.queued k)) ++
    all s.netStores.length (fun k => .netstArrival (.queued k)) ++ all s.netLoads.length (fun k => .netldArrival (.queued k)) ++
    all s.responses.length (fun k => .fabricResponse (.queued k)) ++ all s.requests.length .fabricRequestTimeout ++
    s.vchChange.map (fun c => .vchModeChangeComplete c.1) ++ all 320 (fun c => .dispense (c / 80) c)

/-! ### The step's schedule -/

/-- The transition after this one (log entry 1): what is due, in every other step and after an issue; each of the duties in its turn;
and any event at all. -/
def State.choose (s : State) : Instr :=
  let free := Config.schedule s.tick
  if s.tick % 2 = 1 && s.next != .issue then
    if s.tick % 64 = 63 then s.duties.getD (s.tick / 64 % s.duties.length) free else free
  else s.due.getD free

/-- The cycles that pass in a step: none while something is due or a warp issues, at most one while a block is resident, and now and
then one in any case (log entry 1). -/
def State.cycles (s : State) : Nat :=
  if s.tick % 2 ^ 20 = 0 then max 1 (Config.cycles s.tick)
  else if s.due.isSome || s.next = .issue then 0
  else if s.cores.isEmpty then Config.cycles s.tick
  else min 1 (Config.cycles s.tick)

/-- The state in which a step makes its transition. -/
def State.scheduled (s0 : State) : State :=
  let s := s0.settled.quadsSettled.ageHome
  { s.pass s.cycles with next := .event s.choose }

end Sys2Proof.Machine
end

