-- ==== Sys2Proof/Machine/Dispatch.lean ====
section
/-!
DEFINITION. The dispatch: one arm per constructor of Instr, each a direct call of its meaning.
-/
namespace Sys2Proof.Machine

/-- Executes an instruction or an event. -/
def exec (i : Instr) (s : State) : Host.Outcome State Fault Refusal :=
  match i with
  | .sadd f => Sys2Proof.Machine.execSadd f s
  | .ssub f => Sys2Proof.Machine.execSsub f s
  | .smul f => Sys2Proof.Machine.execSmul f s
  | .smulh f => Sys2Proof.Machine.execSmulh f s
  | .sdiv f => Sys2Proof.Machine.execSdiv f s
  | .srem f => Sys2Proof.Machine.execSrem f s
  | .sand f => Sys2Proof.Machine.execSand f s
  | .sor f => Sys2Proof.Machine.execSor f s
  | .sxor f => Sys2Proof.Machine.execSxor f s
  | .sshl f => Sys2Proof.Machine.execSshl f s
  | .sshr f => Sys2Proof.Machine.execSshr f s
  | .ssra f => Sys2Proof.Machine.execSsra f s
  | .smin f => Sys2Proof.Machine.execSmin f s
  | .smax f => Sys2Proof.Machine.execSmax f s
  | .scmp f => Sys2Proof.Machine.execScmp f s
  | .ssel f => Sys2Proof.Machine.execSsel f s
  | .smov f => Sys2Proof.Machine.execSmov f s
  | .sli f => Sys2Proof.Machine.execSli f s
  | .saddr f => Sys2Proof.Machine.execSaddr f s
  | .sclz f => Sys2Proof.Machine.execSclz f s
  | .spopc f => Sys2Proof.Machine.execSpopc f s
  | .sbfe f => Sys2Proof.Machine.execSbfe f s
  | .sbfi f => Sys2Proof.Machine.execSbfi f s
  | .sget f => Sys2Proof.Machine.execSget f s
  | .bra f => Sys2Proof.Machine.execBra f s
  | .br f => Sys2Proof.Machine.execBr f s
  | .brx f => Sys2Proof.Machine.execBrx f s
  | .call f => Sys2Proof.Machine.execCall f s
  | .callx f => Sys2Proof.Machine.execCallx f s
  | .ret f => Sys2Proof.Machine.execRet f s
  | .retv f => Sys2Proof.Machine.execRetv f s
  | .loop f => Sys2Proof.Machine.execLoop f s
  | .yield f => Sys2Proof.Machine.execYield f s
  | .region f => Sys2Proof.Machine.execRegion f s
  | .reconv f => Sys2Proof.Machine.execReconv f s
  | .bsync f => Sys2Proof.Machine.execBsync f s
  | .trap f => Sys2Proof.Machine.execTrap f s
  | .sleep f => Sys2Proof.Machine.execSleep f s
  | .getpc f => Sys2Proof.Machine.execGetpc f s
  | .nop f => Sys2Proof.Machine.execNop f s
  | .vadd f => Sys2Proof.Machine.execVadd f s
  | .vsub f => Sys2Proof.Machine.execVsub f s
  | .vmul f => Sys2Proof.Machine.execVmul f s
  | .vmulh f => Sys2Proof.Machine.execVmulh f s
  | .vmad f => Sys2Proof.Machine.execVmad f s
  | .vmin f => Sys2Proof.Machine.execVmin f s
  | .vmax f => Sys2Proof.Machine.execVmax f s
  | .vabs f => Sys2Proof.Machine.execVabs f s
  | .vand f => Sys2Proof.Machine.execVand f s
  | .vor f => Sys2Proof.Machine.execVor f s
  | .vxor f => Sys2Proof.Machine.execVxor f s
  | .vshl f => Sys2Proof.Machine.execVshl f s
  | .vshr f => Sys2Proof.Machine.execVshr f s
  | .vsra f => Sys2Proof.Machine.execVsra f s
  | .vsrar f => Sys2Proof.Machine.execVsrar f s
  | .vadds f => Sys2Proof.Machine.execVadds f s
  | .vsubs f => Sys2Proof.Machine.execVsubs f s
  | .vdot2s f => Sys2Proof.Machine.execVdot2s f s
  | .vcmp f => Sys2Proof.Machine.execVcmp f s
  | .vsel f => Sys2Proof.Machine.execVsel f s
  | .vmov f => Sys2Proof.Machine.execVmov f s
  | .vli f => Sys2Proof.Machine.execVli f s
  | .vbfe f => Sys2Proof.Machine.execVbfe f s
  | .vpopc f => Sys2Proof.Machine.execVpopc f s
  | .fadd f => Sys2Proof.Machine.execFadd f s
  | .fsub f => Sys2Proof.Machine.execFsub f s
  | .fmul f => Sys2Proof.Machine.execFmul f s
  | .ffma f => Sys2Proof.Machine.execFfma f s
  | .fmin f => Sys2Proof.Machine.execFmin f s
  | .fmax f => Sys2Proof.Machine.execFmax f s
  | .fcmp f => Sys2Proof.Machine.execFcmp f s
  | .frcp f => Sys2Proof.Machine.execFrcp f s
  | .frsq f => Sys2Proof.Machine.execFrsq f s
  | .fexp2 f => Sys2Proof.Machine.execFexp2 f s
  | .flog2 f => Sys2Proof.Machine.execFlog2 f s
  | .fcvt f => Sys2Proof.Machine.execFcvt f s
  | .icvt f => Sys2Proof.Machine.execIcvt f s
  | .pkadd f => Sys2Proof.Machine.execPkadd f s
  | .pkfma f => Sys2Proof.Machine.execPkfma f s
  | .fclass f => Sys2Proof.Machine.execFclass f s
  | .vslide f => Sys2Proof.Machine.execVslide f s
  | .vshuf f => Sys2Proof.Machine.execVshuf f s
  | .vbcast f => Sys2Proof.Machine.execVbcast f s
  | .vreduce f => Sys2Proof.Machine.execVreduce f s
  | .vscan f => Sys2Proof.Machine.execVscan f s
  | .vote f => Sys2Proof.Machine.execVote f s
  | .pset f => Sys2Proof.Machine.execPset f s
  | .pmov f => Sys2Proof.Machine.execPmov f s
  | .xcvt f => Sys2Proof.Machine.execXcvt f s
  | .xpack f => Sys2Proof.Machine.execXpack f s
  | .xunpack f => Sys2Proof.Machine.execXunpack f s
  | .xtopk f => Sys2Proof.Machine.execXtopk f s
  | .xcrc f => Sys2Proof.Machine.execXcrc f s
  | .xsort f => Sys2Proof.Machine.execXsort f s
  | .vmatch f => Sys2Proof.Machine.execVmatch f s
  | .vlane f => Sys2Proof.Machine.execVlane f s
  | .ld f => Sys2Proof.Machine.execLd f s
  | .st f => Sys2Proof.Machine.execSt f s
  | .ldp f => Sys2Proof.Machine.execLdp f s
  | .stp f => Sys2Proof.Machine.execStp f s
  | .lds f => Sys2Proof.Machine.execLds f s
  | .sts f => Sys2Proof.Machine.execSts f s
  | .ldg f => Sys2Proof.Machine.execLdg f s
  | .stg f => Sys2Proof.Machine.execStg f s
  | .spadd f => Sys2Proof.Machine.execSpadd f s
  | .atom f => Sys2Proof.Machine.execAtom f s
  | .atomc f => Sys2Proof.Machine.execAtomc f s
  | .atoms f => Sys2Proof.Machine.execAtoms f s
  | .rwlrd f => Sys2Proof.Machine.execRwlrd f s
  | .rwlwr f => Sys2Proof.Machine.execRwlwr f s
  | .rwlup f => Sys2Proof.Machine.execRwlup f s
  | .rwlrel f => Sys2Proof.Machine.execRwlrel f s
  | .fence f => Sys2Proof.Machine.execFence f s
  | .cpy f => Sys2Proof.Machine.execCpy f s
  | .cpyg f => Sys2Proof.Machine.execCpyg f s
  | .cpyw f => Sys2Proof.Machine.execCpyw f s
  | .dst f => Sys2Proof.Machine.execDst f s
  | .commit f => Sys2Proof.Machine.execCommit f s
  | .pref f => Sys2Proof.Machine.execPref f s
  | .cctlIfetch f => Sys2Proof.Machine.execCctlIfetch f s
  | .cctlFlush f => Sys2Proof.Machine.execCctlFlush f s
  | .cctlWb f => Sys2Proof.Machine.execCctlWb f s
  | .bankcfg f => Sys2Proof.Machine.execBankcfg f s
  | .fput f => Sys2Proof.Machine.execFput f s
  | .fget f => Sys2Proof.Machine.execFget f s
  | .ldu f => Sys2Proof.Machine.execLdu f s
  | .stu f => Sys2Proof.Machine.execStu f s
  | .atomx f => Sys2Proof.Machine.execAtomx f s
  | .talloc f => Sys2Proof.Machine.execTalloc f s
  | .tfree f => Sys2Proof.Machine.execTfree f s
  | .thand f => Sys2Proof.Machine.execThand f s
  | .ttake f => Sys2Proof.Machine.execTtake f s
  | .tld f => Sys2Proof.Machine.execTld f s
  | .tst f => Sys2Proof.Machine.execTst f s
  | .tldw f => Sys2Proof.Machine.execTldw f s
  | .tswap f => Sys2Proof.Machine.execTswap f s
  | .tmma f => Sys2Proof.Machine.execTmma f s
  | .tmmac f => Sys2Proof.Machine.execTmmac f s
  | .tzero f => Sys2Proof.Machine.execTzero f s
  | .tscale f => Sys2Proof.Machine.execTscale f s
  | .ttrans f => Sys2Proof.Machine.execTtrans f s
  | .tcvt f => Sys2Proof.Machine.execTcvt f s
  | .tquant f => Sys2Proof.Machine.execTquant f s
  | .tadd f => Sys2Proof.Machine.execTadd f s
  | .tmul f => Sys2Proof.Machine.execTmul f s
  | .tred f => Sys2Proof.Machine.execTred f s
  | .tabsmax f => Sys2Proof.Machine.execTabsmax f s
  | .tgetrow f => Sys2Proof.Machine.execTgetrow f s
  | .tsetrow f => Sys2Proof.Machine.execTsetrow f s
  | .tdrain f => Sys2Proof.Machine.execTdrain f s
  | .barinit f => Sys2Proof.Machine.execBarinit f s
  | .barenrol f => Sys2Proof.Machine.execBarenrol f s
  | .bararrive f => Sys2Proof.Machine.execBararrive f s
  | .barexpect f => Sys2Proof.Machine.execBarexpect f s
  | .barwait f => Sys2Proof.Machine.execBarwait f s
  | .stamptry f => Sys2Proof.Machine.execStamptry f s
  | .stampset f => Sys2Proof.Machine.execStampset f s
  | .perfCtr f => Sys2Proof.Machine.execPerfCtr f s
  | .perfMcfg f => Sys2Proof.Machine.execPerfMcfg f s
  | .perfMrd f => Sys2Proof.Machine.execPerfMrd f s
  | .perfMclr f => Sys2Proof.Machine.execPerfMclr f s
  | .spawn f => Sys2Proof.Machine.execSpawn f s
  | .launch f => Sys2Proof.Machine.execLaunch f s
  | .join f => Sys2Proof.Machine.execJoin f s
  | .exit f => Sys2Proof.Machine.execExit f s
  | .qdepth f => Sys2Proof.Machine.execQdepth f s
  | .park f => Sys2Proof.Machine.execPark f s
  | .collpush f => Sys2Proof.Machine.execCollpush f s
  | .collpull f => Sys2Proof.Machine.execCollpull f s
  | .collwait f => Sys2Proof.Machine.execCollwait f s
  | .collwaitStat f => Sys2Proof.Machine.execCollwaitStat f s
  | .netst f => Sys2Proof.Machine.execNetst f s
  | .netld f => Sys2Proof.Machine.execNetld f s
  | .collgrp f => Sys2Proof.Machine.execCollgrp f s
  | .collgrpClr f => Sys2Proof.Machine.execCollgrpClr f s
  | .objset f => Sys2Proof.Machine.execObjset f s
  | .objsetClr f => Sys2Proof.Machine.execObjsetClr f s
  | .objget f => Sys2Proof.Machine.execObjget f s
  | .rwload f => Sys2Proof.Machine.execRwload f s
  | .feat f => Sys2Proof.Machine.execFeat f s
  | .tlbinvVa f => Sys2Proof.Machine.execTlbinvVa f s
  | .tlbinvAll f => Sys2Proof.Machine.execTlbinvAll f s
  | .tlbinvObj f => Sys2Proof.Machine.execTlbinvObj f s
  | .csr f => Sys2Proof.Machine.execCsr f s
  | .illegalInstruction detail offset => Sys2Proof.Machine.execIllegalInstruction detail offset s
  | .illegalEncoding detail offset => Sys2Proof.Machine.execIllegalEncoding detail offset s
  | .gridCompletion grid => Sys2Proof.Machine.execGridCompletion grid s
  | .dispense die core => Sys2Proof.Machine.execDispense die core s
  | .staggerExpiry core => Sys2Proof.Machine.execStaggerExpiry core s
  | .issueSelect core warp => Sys2Proof.Machine.execIssueSelect core warp s
  | .longLatencyStall core warp => Sys2Proof.Machine.execLongLatencyStall core warp s
  | .pendingWaitExchange core warp => Sys2Proof.Machine.execPendingWaitExchange core warp s
  | .loadResponse core warp load => Sys2Proof.Machine.execLoadResponse core warp load s
  | .atomicResponse core warp => Sys2Proof.Machine.execAtomicResponse core warp s
  | .fenceComplete core warp => Sys2Proof.Machine.execFenceComplete core warp s
  | .fenceConflict core warp => Sys2Proof.Machine.execFenceConflict core warp s
  | .sleepExpiry core warp => Sys2Proof.Machine.execSleepExpiry core warp s
  | .barwaitBoundExpiry core warp => Sys2Proof.Machine.execBarwaitBoundExpiry core warp s
  | .barwaitObserve core warp => Sys2Proof.Machine.execBarwaitObserve core warp s
  | .xformAccept core => Sys2Proof.Machine.execXformAccept core s
  | .xformComplete core warp => Sys2Proof.Machine.execXformComplete core warp s
  | .tileComplete core warp => Sys2Proof.Machine.execTileComplete core warp s
  | .windowMatch core warp => Sys2Proof.Machine.execWindowMatch core warp s
  | .bankModeChangeComplete core => Sys2Proof.Machine.execBankModeChangeComplete core s
  | .jobStart core job => Sys2Proof.Machine.execJobStart core job s
  | .jobComplete core job => Sys2Proof.Machine.execJobComplete core job s
  | .jobSuspend core job => Sys2Proof.Machine.execJobSuspend core job s
  | .jobFault core job => Sys2Proof.Machine.execJobFault core job s
  | .faultRetry party => Sys2Proof.Machine.execFaultRetry party s
  | .preemptTimeout core warp => Sys2Proof.Machine.execPreemptTimeout core warp s
  | .saveBlock core => Sys2Proof.Machine.execSaveBlock core s
  | .cataloguerTake core => Sys2Proof.Machine.execCataloguerTake core s
  | .binPark bin => Sys2Proof.Machine.execBinPark bin s
  | .remoteBinForward bin => Sys2Proof.Machine.execRemoteBinForward bin s
  | .closeT msg => Sys2Proof.Machine.execCloseT msg s
  | .commitAck ack => Sys2Proof.Machine.execCommitAck ack s
  | .commitRemoteTimeout party => Sys2Proof.Machine.execCommitRemoteTimeout party s
  | .tagWaitTimeout core => Sys2Proof.Machine.execTagWaitTimeout core s
  | .tagHoldExpiry gallery tag => Sys2Proof.Machine.execTagHoldExpiry gallery tag s
  | .tagGrant gallery => Sys2Proof.Machine.execTagGrant gallery s
  | .contributionArrival packet => Sys2Proof.Machine.execContributionArrival packet s
  | .slotTimeout slot => Sys2Proof.Machine.execSlotTimeout slot s
  | .ingressHoldTimeout held => Sys2Proof.Machine.execIngressHoldTimeout held s
  | .deliveryWrite delivery => Sys2Proof.Machine.execDeliveryWrite delivery s
  | .pullArrival request => Sys2Proof.Machine.execPullArrival request s
  | .holdRetireTimeout slot => Sys2Proof.Machine.execHoldRetireTimeout slot s
  | .netstArrival request => Sys2Proof.Machine.execNetstArrival request s
  | .netldArrival request => Sys2Proof.Machine.execNetldArrival request s
  | .fabricResponse response => Sys2Proof.Machine.execFabricResponse response s
  | .fabricRequestTimeout request => Sys2Proof.Machine.execFabricRequestTimeout request s
  | .monitorSample gallery monitor value => Sys2Proof.Machine.execMonitorSample gallery monitor value s
  | .limiterSample wing current temperature => Sys2Proof.Machine.execLimiterSample wing current temperature s
  | .vchModeWrite port stack value => Sys2Proof.Machine.execVchModeWrite port stack value s
  | .vchFpWrite port stack value => Sys2Proof.Machine.execVchFpWrite port stack value s
  | .hostMemAccess pa access => Sys2Proof.Machine.execHostMemAccess pa access s
  | .powerUp => Sys2Proof.Machine.execPowerUp s
  | .bootgo port value => Sys2Proof.Machine.execBootgo port value s
  | .firmwareVerified => Sys2Proof.Machine.execFirmwareVerified s
  | .firmwareRunning => Sys2Proof.Machine.execFirmwareRunning s
  | .linkDown port => Sys2Proof.Machine.execLinkDown port s
  | .semAcquire port sem => Sys2Proof.Machine.execSemAcquire port sem s
  | .semRelease port sem => Sys2Proof.Machine.execSemRelease port sem s
  | .errClear port value => Sys2Proof.Machine.execErrClear port value s
  | .ctxenWrite port value => Sys2Proof.Machine.execCtxenWrite port value s
  | .qapp port value => Sys2Proof.Machine.execQapp port value s
  | .tailinc port value => Sys2Proof.Machine.execTailinc port value s
  | .preStart port value => Sys2Proof.Machine.execPreStart port value s
  | .quiesceGallery port gallery => Sys2Proof.Machine.execQuiesceGallery port gallery s
  | .returnGallery port gallery => Sys2Proof.Machine.execReturnGallery port gallery s
  | .substitute port core spare => Sys2Proof.Machine.execSubstitute port core spare s
  | .rowRepair port stack channel row => Sys2Proof.Machine.execRowRepair port stack channel row s
  | .spanRetrain port span => Sys2Proof.Machine.execSpanRetrain port span s
  | .monitorReset port value => Sys2Proof.Machine.execMonitorReset port value s
  | .moncfg port value => Sys2Proof.Machine.execMoncfg port value s
  | .eccClear port counter value => Sys2Proof.Machine.execEccClear port counter value s
  | .att port value => Sys2Proof.Machine.execAtt port value s
  | .registerWrite port offset value => Sys2Proof.Machine.execRegisterWrite port offset value s
  | .storePerformed core warp store => Sys2Proof.Machine.execStorePerformed core warp store s
  | .softError place correctable => Sys2Proof.Machine.execSoftError place correctable s
  | .powerLoss => Sys2Proof.Machine.execPowerLoss s
  | .vchModeChangeComplete stack => Sys2Proof.Machine.execVchModeChangeComplete stack s
  | .spanRetrainComplete span => Sys2Proof.Machine.execSpanRetrainComplete span s
  | .rowRepairComplete stack channel row => Sys2Proof.Machine.execRowRepairComplete stack channel row s

end Sys2Proof.Machine
end

