-- ==== Sys2Proof/Machine/Step.lean ====
section
/-!
DEFINITION. One step of the device: the issue of one instruction by the current warp, or one event (log
entry 1); and the placing of an instruction as the next one to be fetched.
-/
namespace Sys2Proof.Machine

/-- The current warp issues: at a header it fetches first (R78 to R87). -/
def issueStep (s : State) : Host.Outcome State Fault Refusal :=
  match s.view with
  | none => .next s
  | some t =>
    if t.w.clause.isSome then exec t.decoded s
    else
      match t.fetched with
      | .ready t' => exec t'.decoded t'.close
      | .ended s' => .next s'

/-- One step. -/
def step (s : State) : Host.Outcome State Fault Refusal :=
  match s.next with
  | .event e => exec e s.scheduled
  | .issue => issueStep s.scheduled

/-- The launch facts of the block that `withFetchWord` places: one warp of 128 registers, context 0. -/
def fetchLaunch : Launch :=
  { record := 0x30000, cont := none, block := 0, nblocks := 1, gang := 0, rank := 0, gsize := 1, ctx := 0, prio := 0,
    recPrio := 0, coop := false, sys := false, frame := 0, regs := 128, nwarps := 1, tiles := 32, shape := 0x3C0,
    stko := 0, descBase := 0x31000, dcnt := 1, rule := 0 }

/-- The clause that `withFetchWord` writes at 0x20000: a header of class 7 with one instruction, the words of the
instruction, and a header after it (R79, R80). -/
def fetchWords (nbits w : Nat) : List Word32 :=
  let ws := wordsOf 4 (w % 2 ^ nbits)
  0xF1E00000 :: ws.take (((decode ws).map Decoded.len).getD 1) ++ [0xF0000000]

/-- The state with an instruction stored where the next step fetches: core 0 holds a block of one warp whose
running split stands at a clause that holds it; context 0 maps the first 4 TB one to one (log entry 11). -/
def State.withFetchWord (s : State) (nbits w : Nat) : State :=
  let base := s.host.ctxbase.toNat
  let m1 := Cells.setMany s.mem 0x20000 ((fetchWords nbits w).flatMap (fun x => leBytes 4 x.toNat))
  let m2 := Cells.setMany m1 0x10000 (leBytes 8 0x10F)
  let m3 := Cells.setMany m2 base (leBytes 8 1 ++ leBytes 8 0x10000 ++ leBytes 8 0x40000 ++ leBytes 8 0x60000 ++ leBytes 32 0)
  let wp : Warp := { Warp.start 0 0x20000 none with started := true }
  let b : Block := { Block.start fetchLaunch 0x20000 0 none with warps := [wp] }
  { s with
    mem := m3, tlb := [], objCache := [], objWritten := [], objDropped := [], descCache := [], oldCode := [], home := [], next := .issue, curCore := 0, curWarp := 0,
    cores := { num := 0, block := b } :: s.cores.filter (fun c => c.num != 0) }

end Sys2Proof.Machine
end

