-- ==== Sys2Proof/WellFormed.lean ====
section
/-!
DEFINITION. Well-formed instructions: an instruction of a stream whose prefixes and fields spec 04 allows
(R88 to R98, R101) in a warp of 128 registers.
-/
namespace Sys2Proof

/-- An instruction row with legal prefixes and fields. Events are not encoded, so none is well formed. -/
def Instr.wellFormed (i : Instr) : Bool := !i.isEvent && i.prefixesOk && (i.fieldFault 128).isNone

end Sys2Proof
end

