-- ==== Sys2Proof/Safety.lean ====
section
/-!
DEFINITION. The terms in which claims about the device are stated: when an instruction runs its own operation, how it ends,
what it writes, and what a safe step is.
-/
namespace Sys2Proof.Machine

/-! ### When an instruction runs its own operation -/

/-- The warp in view runs the instruction `i` itself: it stands inside its clause and has met no wait there (R332), nothing that it
has under way hinders the instruction (R82, R95, R193, R247, R305), it has a lane in its effective mask (R85), every live lane if the
instruction is warp-uniform (R41), reads no register with an uncorrectable error, since the device holds none (R437), and an
instruction of a rewrite window has its match behind it and issues as written (R394, R402). -/
def View.runs (t : View) (i : Instr) : Bool :=
  !t.cl.todo.isEmpty && !t.hazard i && t.eff != 0 && (!isUniform i || t.eff == t.w.liveLanes) && t.dev.bad.isEmpty &&
    t.w.waiting.isNone && (!t.inWindow i || t.w.plan.head? == some .pass)

/-- The view in which the instruction's own operation runs: one of a rewrite window has taken its place in the plan (R402). -/
def View.taken (t : View) (i : Instr) : View := if t.inWindow i then t.setW { t.w with plan := t.w.plan.tail } else t

/-- The well-formed instruction `i` issues at `s` for the warp in view `t`, and runs its own operation. -/
def Runs (i : Instr) (s : State) (t : View) : Prop := s.view = some t ∧ t.runs i = true ∧ i.wellFormed = true

/-! ### How it ends -/

/-- The instruction completes: the view `t'` after its operation retires (R80). -/
def Completes (i : Instr) (s : State) (t' : View) : Prop := exec i s = .next t'.retire.close

/-- The instruction raises a fault and has none of its effect (R102, R430). -/
def Raises (i : Instr) (s : State) (t : View) (f : FaultInfo) : Prop := exec i s = .next (t.raise f)

/-- The instruction cannot go ahead yet: the warp waits at it, and nothing else changes (R332). -/
def Waits (i : Instr) (s : State) (t : View) : Prop := exec i s = .next (t.stalled (stallKind i)).close

/-- The instruction's checks end with `f`: a fault, or, of class 0, an access that must wait first (R128, R241). -/
def Stops (i : Instr) (s : State) (t : View) (f : FaultInfo) : Prop :=
  (f.cls ≠ 0 → Raises i s t f) ∧ (f.cls = 0 → Waits i s t)

/-- The instruction ends as its own operation `r` does. -/
def EndsAs (i : Instr) (s : State) (t : View) (r : Res) : Prop :=
  match r with
  | .ok t' => Completes i s t'
  | .fault f => Stops i s t f
  | .faultIn t' f => (f.cls ≠ 0 → exec i s = .next (t'.raise f)) ∧ (f.cls = 0 → Waits i s t)
  | .hold t' => exec i s = .next ((t'.setW { t'.w with plan := t.w.plan }).stalled (stallKind i)).close
  | .skip t' => exec i s = .next t'.advance.close
  | .wait => Waits i s t

/-- The warp may pass a region entry and stays within the block's rename budget there (R39), and it holds no counter operation that
the entry would make take effect (R424). -/
def View.passesFreely (t : View) : Prop := t.mayPass = true ∧ t.w.held = [] ∧ t.blk.slotUse ≤ 48

/-- The same, and no FENCE is pending, for which an access or a job that enters a region waits (R252). -/
def View.entersFreely (t : View) : Prop := t.mayEnter = true ∧ t.w.held = [] ∧ t.blk.slotUse ≤ 48

/-- A byte of memory, as the vault cache has it, by which accesses of deferred pages go, and as its home slice gives it to every other
access (R234). -/
def State.byteAt (s : State) (a : Nat) : Byte × Byte := (Cells.get s.mem a, (s.homeBytes a 1).headD 0)

/-- Every byte of memory reads as before. -/
def SameMemory (s s' : State) : Prop := ∀ a, s'.byteAt a = s.byteAt a

/-- No home slice holds a sector that a conservator has changed since (R234): all accesses of a byte meet the same value, and what leaves
a home slice changes no byte. -/
def HomeAgrees (s : State) : Prop := ∀ e ∈ s.home, e.old = none

/-- A tile instruction ends as `r` does and, where the tile memory has a free slot for the new version, it completes: the
version is under way, and the warp goes on (R219, R305). -/
def EndsTile (i : Instr) (s : State) (t : View) (acc : Bool) (r : Res) : Prop :=
  EndsAs i s t r ∧ ∀ k, (t.blk.setWarp t.w).findSlot acc = some k → ∃ (t' : View) (o : Op) (img : Cells 8) (todo : List TilePiece) (dfr : Bool),
    r = .ok t' ∧ Completes i s t' ∧ t'.w.ops = t.w.ops ++ [o] ∧ o.body = .tile k acc img todo dfr ∧ o.seq = t.w.seq ∧
      SameMemory s t'.retire.close

/-- How the transfer of lanes to targets ends (R142, R143): a target that fails its checks raises their fault before any lane
moves; else the running split falls apart into the lanes that go on at the next header and one split for each target, which run in
that order, after a switch where a counted branch goes backward (R29, R30, R144); the split-stack frame may fault (R28), which a warp
whose splits stay at most four does not use. The view `t0` holds what the instruction has written before. -/
def Transfers (i : Instr) (s : State) (t t0 : View) (groups : List (Addr × LaneMask)) (count : Bool) : Prop :=
  let taken := groups.foldl (fun m g => m ||| g.2) 0
  let ring := replaceRunning t0.w.ring
    ({ pc := t.nextHeader, mask := t0.w.runMask &&& ~~~ taken, st := .ready } ::
      groups.map (fun g => { pc := g.1, mask := g.2, st := .ready }))
  let back := count && groups.any (fun g => decide (g.1.toNat ≤ t.cl.header.toNat))
  let checked := eachLane (fun (g : Addr × LaneMask) => t0.checkTarget g.1) groups
  (∀ e, checked = .error e → Stops i s t e) ∧
    (∀ u, checked = .ok u →
      (∀ e, t0.putRing (if back then switchRing ring else ring) = .error e → Stops i s t e) ∧
      (∀ t1, t0.putRing (if back then switchRing ring else ring) = .ok t1 →
        Completes i s (if back then t1.countBack.leave else t1.leave)) ∧
      (t0.w.running.isSome = true → t0.w.ring.length + groups.length ≤ 4 →
        let t1 := t0.setW { t0.w with ring := if back then switchRing ring else ring }
        Completes i s (if back then t1.countBack.leave else t1.leave)))

/-- How a call ends (R149): the targets are checked, the address of the next header is pushed with the lanes that go, and they
go to their targets. -/
def Calls (i : Instr) (s : State) (t t0 : View) (groups : List (Addr × LaneMask)) : Prop :=
  let checked := eachLane (fun (g : Addr × LaneMask) => t0.checkTarget g.1) groups
  let entry : RetEntry := { addr := t.nextHeader, mask := groups.foldl (fun m g => m ||| g.2) 0 }
  (∀ e, checked = .error e → Stops i s t e) ∧
    (∀ u, checked = .ok u →
      (∀ e, t0.pushRet entry = .error e → Stops i s t e) ∧
      (∀ t1, t0.pushRet entry = .ok t1 → Transfers i s t t1 groups false) ∧
      (t0.w.depth < 16 → Transfers i s t (t0.setW { t0.w with depth := t0.w.depth + 1, hw := entry :: t0.w.hw }) groups false))

/-! ### What it writes -/

/-- The view after a vector instruction of form A writes v(d) in the lanes of E: each element from the elements of v(a),
operand b and v(d), one of 32 bits, two halves, four bytes or a pair of registers (R54, R163, R166). -/
def View.laneWrite (t : View) (f : FormA) (sh : Shape) (op : (n : Nat) → BitVec n → BitVec n → BitVec n → BitVec n) : View :=
  let a (l : Nat) : Word32 := t.w.rv f.a.toNat l
  let b (l : Nat) : Word32 := t.w.opB f l
  let d (l : Nat) : Word32 := t.w.rv f.d.toNat l
  let part (n k l : Nat) : BitVec n := op n ((a l).extractLsb' (n * k) n) ((b l).extractLsb' (n * k) n) ((d l).extractLsb' (n * k) n)
  match sh with
  | .one => t.setW (t.w.wvEach f.d.toNat (fun l => op 32 (a l) (b l) (d l)) t.effLanes)
  | .half => t.setW (t.w.wvEach f.d.toNat (fun l => part 16 1 l ++ part 16 0 l) t.effLanes)
  | .quarter => t.setW (t.w.wvEach f.d.toNat (fun l => part 8 3 l ++ (part 8 2 l ++ (part 8 1 l ++ part 8 0 l))) t.effLanes)
  | .pair => t.setW (t.w.wv64Each f.d.toNat (fun l => op 64 (t.w.rv64 f.a.toNat l) (t.w.opB64 f l) (t.w.rv64 f.d.toNat l)) t.effLanes)

/-- The view after v(d) takes `g` in the lanes of E. -/
def View.vectorWrite (t : View) (d : Nat) (g : Nat → Word32) : View := t.setW (t.w.wvEach d g t.effLanes)

/-- The same with flagged results: their flags are added to the warp's sticky flags (R72, R73). -/
def View.flaggedWrite (t : View) (d : Nat) (g : Nat → Flagged Word32) : View :=
  t.setW ((t.w.wvEach d (fun l => (g l).val) t.effLanes).addFlags (flagsOf (t.effLanes.map g)) (satOf (t.effLanes.map g)))

/-- From `w` to `w'` nothing changed but scalar registers of `ds` (R119). -/
def OnlyScalars (w w' : Warp) (ds : List Nat) : Prop :=
  w' = { w with s := w'.s } ∧ ∀ r, r ∉ ds → Cells.get w'.s r = Cells.get w.s r

/-- From `w` to `w'` nothing changed but the predicate `p`, in the lanes of `e` (R119, R170). -/
def OnlyPredicate (w w' : Warp) (p : Nat) (e : LaneMask) : Prop :=
  w' = { w with p := w'.p } ∧ (∀ r, r ≠ p → Cells.get w'.p r = Cells.get w.p r) ∧
    ∀ l, e.getLsbD l = false → (Cells.get w'.p p).getLsbD l = (Cells.get w.p p).getLsbD l

/-- From `w` to `w'` nothing changed but lanes of `e` of the vector registers `rs` (R119). -/
def OnlyVectors (w w' : Warp) (rs : List Nat) (e : LaneMask) : Prop :=
  w' = { w with v := w'.v } ∧
    ∀ r l, l < 32 → (r ∉ rs ∨ e.getLsbD l = false) → w'.rv r l = w.rv r l

/-- The same, and the sticky flags may have gained bits (R72, R73). -/
def OnlyVectorsFlags (w w' : Warp) (rs : List Nat) (e : LaneMask) : Prop :=
  w' = { w with v := w'.v, fpflags := w'.fpflags, satflag := w'.satflag } ∧
    w'.fpflags &&& w.fpflags = w.fpflags ∧ w'.satflag &&& w.satflag = w.satflag ∧
    ∀ r l, l < 32 → (r ∉ rs ∨ e.getLsbD l = false) → w'.rv r l = w.rv r l

/-- Every byte of memory outside the `n` bytes at `pa` reads as before. -/
def SameMemoryBut (pa n : Nat) (s s' : State) : Prop :=
  ∀ a, ¬ (pa ≤ a ∧ a < pa + n) → s'.byteAt a = s.byteAt a

/-- Retiring changes nothing of the device outside the block in view, nothing of the block outside the warp, and of the warp
only the place where it goes on, its count of issued instructions, and what its quadrant's next selections ask: when it issued, its
yield hint, and that it waits no more (R80, R87, R332, R426). -/
def OnlyMovesOn (t t' : View) : Prop :=
  t' = { t with w := t'.w } ∧
    t'.w = { t.w with ring := t'.w.ring, clause := t'.w.clause, counters := t'.w.counters, wait := none, lastIssue := t.dev.clock, yielded := t'.w.yielded } ∧
    (t'.w.ring.map (fun sp => (sp.mask, sp.st))) = t.w.ring.map (fun sp => (sp.mask, sp.st)) ∧
    ∀ k, k ≠ 0 → Cells.get t'.w.counters k = Cells.get t.w.counters k

/-- The instruction completes with one more load of the warp outstanding: `size` bytes for each of `lanes`, for `dst`. It has read
nothing yet, and changes nothing else but the requests and cached translations of the device. -/
def LoadIssued (i : Instr) (s : State) (t : View) (dst : LoadDst) (size : Nat) (lanes : List LanePlace) : Prop :=
  ∃ (t' : View) (ld : LoadOp), Completes i s t' ∧ t'.w = { t.w with seq := t'.w.seq, loads := t.w.loads ++ [ld] } ∧ t'.blk = t.blk ∧
    ld.dst = dst ∧ ld.size = size ∧ ld.lanes = lanes ∧ SameMemory s t'.retire.close

/-- The instruction completes with more stores in the warp's buffer, in this order (R240, R268): `add` of each is that of an
addition. No byte has changed yet. -/
def StoresIssued (i : Instr) (s : State) (t : View) (ps : List (Loc × List Byte)) (add : Option (BitVec 4)) : Prop :=
  ∃ (t' : View) (os : List StoreOp), Completes i s t' ∧ t'.w = { t.w with seq := t'.w.seq, buf := t.w.buf ++ os.map BufEntry.store } ∧ t'.blk = t.blk ∧
    os.map (fun o => (o.loc, o.bytes)) = ps ∧ (∀ o ∈ os, o.add = add) ∧ SameMemory s t'.retire.close

/-- The counter instruction of the warp in view reaches the word or object at `loc`, whose bytes are `bs`, and has nothing to wait
for (R128, R215, R241, R252, R415). -/
def View.Reaches (t : View) (g : Bool) (a : Word64) (n : Nat) (loc : Loc) (bs : List Byte) : Prop :=
  t.counterLoc g a n = .ok loc ∧ (g = false → t.blk.offBusy (a.toNat % 2 ^ 32 : Nat) = false) ∧ t.placeBusy loc n = false ∧
    t.dev.readLoc t.core t.w.num loc n = .ok bs

/-- The view in which the translation of a global counter word is cached, and its home slice holds it. -/
def View.cached (t : View) (g : Bool) (a : Word64) (loc : Loc) (n : Nat) : View :=
  if g then { t with dev := (t.dev.touch (some t.core) t.blk.launch.ctx a [700]).visit false loc n } else t

/-- The barrier instruction of the warp in view reaches the object `o`, which passes the misuse checks (R415). -/
def View.ReachesBar (t : View) (g : Bool) (a : Word64) (loc : Loc) (o : BarObj) : Prop :=
  ∃ bs, t.Reaches g a 16 loc bs ∧ BarObj.ofBytes bs = o ∧ o.misuse g t.blk.launch.coop = none

/-! ### Safe steps -/

/-- Memory keeps its canonical form (log entry 4). -/
def MemoryWf (s : State) : Prop := Memory.wf s.mem = true

/-- The step answers a next state. -/
def StepsOn (s : State) : Prop := ∃ s', step s = .next s'

end Sys2Proof.Machine
end

