-- ==== Sys2Proof/Certificates/Slice0/Obligations.lean ====
section
/-!
DEFINITION. The statements about the LDY-4800 for the provers. A statement about an instruction says what the next state is
when the instruction runs its own operation (`Runs`); where it traps or waits is said beside it. Values that the spec leaves open
are the free values of Config, and no statement rests on one.
-/
open Sys2Proof Sys2Proof.Machine

/-! ### Decoding and stepping -/

/-- Decoding the words of a well-formed instruction gives that instruction, its number of words and the place of its base
word, whatever follows it (R78, R80, R88 to R99). -/
def Obligations.DecodeEncode : Prop :=
  ∀ (i : Instr) (rest : List Word32), i.wellFormed = true →
    decodeFor 128 (encode i ++ rest) =
      some { instr := i, len := (encode i).length, base := (prefixWords i.prefixes.1 i.prefixes.2).length }

/-- The decoder on words that the spec writes out with their fields. -/
def Obligations.DecodeWorkedWords : Prop :=
  decodeTableWord 32 0x000C4005 = some (.sadd { d := 3, a := 4, b := 0, fn := 5, imm := none }) ∧
  decodeTableWord 32 0x040420C1 = some (.sdiv { d := 1, a := 2, b := 3, fn := 1, imm := none }) ∧
  decodeTableWord 32 0x28081430 = some (.vadd { d := 4, a := 5, b := 6, var := 0, bs := 0 }) ∧
  decodeTableWord 32 0x600E2051 = some (.ld { data := 7, off := 8, obj := 5, la := 1, imm := none, ext := none })

/-- A step makes the transition that the scheduler has chosen: an event is executed at the scheduled state. -/
def Clause.StepRunsEvent : Prop :=
  ∀ (s : State) (e : Instr), s.next = .event e → step s = exec e s.scheduled

/-- A step of an issuing warp inside its clause executes the instruction that the words at its place decode to (R80, R82). -/
def Clause.StepRunsDecoded : Prop :=
  ∀ (s : State) (t : View), s.next = .issue → s.scheduled.view = some t → t.w.clause.isSome = true →
    step s = exec t.decoded s.scheduled

/-- At a clause header the step fetches the clause first and then executes its first instruction (R78 to R87); a warp that must wait
there waits, one that had been waiting becomes ready first (R332), and a fault of the fetch is taken. -/
def Clause.StepFetches : Prop :=
  ∀ (s : State) (t : View), s.next = .issue → s.scheduled.view = some t → t.w.clause = none →
    (∀ t', t.fetch = .ok t' → t.w.waiting = none → step s = exec t'.decoded t'.close) ∧
    (∀ t', t.fetch = .ok t' → t.w.waiting ≠ none → step s = .next t.polled.close) ∧
    (t.fetch = .wait → step s = .next (t.stalled t.fetchWait).close) ∧
    (∀ f, t.fetch = .fault f → f.cls ≠ 0 → t.w.waiting = none → step s = .next (t.raise f)) ∧
    (∀ t' f, t.fetch = .faultIn t' f → f.cls ≠ 0 → t.w.waiting = none → step s = .next (t'.raise f))

/-- A step makes the transition that the scheduler has chosen: an event is executed, or the instruction that the words at the warp's
place decode to, after the fetch of its clause at a header (R78 to R87; log entry 1). -/
def Obligations.StepRunsTransition : Prop := Clause.StepRunsEvent ∧ Clause.StepRunsDecoded ∧ Clause.StepFetches

/-- No step is refused: every instruction and every event has a meaning. -/
def Clause.NothingRefused : Prop := ∀ (s : State) (r : Refusal), step s ≠ .refused r

/-- Every event answers a next state, at every state. -/
def Clause.EventsStepOn : Prop :=
  ∀ (e : Instr) (s : State), e.isEvent = true → ∃ s', exec e s = .next s'

/-- No step is refused, and every event answers a next state. -/
def Obligations.StepsNeverRefused : Prop := Clause.NothingRefused ∧ Clause.EventsStepOn

/-- Memory keeps its canonical form in every step. -/
def Obligations.StepKeepsMemoryWf : Prop :=
  ∀ s s' : State, MemoryWf s → step s = .next s' → MemoryWf s'

/-- The reset memory has the canonical form. -/
def Clause.ResetMemoryWf : Prop := MemoryWf State.reset

/-- What reset leaves: no block runs, no context is enabled, no semaphore is held, the boot ROM waits, no byte of memory is listed,
and the clock counts from 0 (R122, R450, R451, R455, R456). That CTXEN and the semaphores are 0 is the model's choice: the spec gives
them no reset value (log entry 6); so is the 0 of an unlisted byte (log entry 4). -/
def Clause.ResetState : Prop :=
  State.reset.cores = [] ∧ State.reset.host.boot = 0 ∧ State.reset.host.ctxen = 0 ∧
    (∀ k, k < 8 → State.reset.host.sem.getD k 3 = 0) ∧ State.reset.clock = 0 ∧ (∀ a, Cells.get State.reset.mem a = 0)

/-- What reset leaves (R122, R450, R451, R455, R456; CTXEN and the semaphores: log entry 6, unlisted memory: log entry 4, both the
model's choices), and that its memory has the canonical form (log entry 4). -/
def Obligations.ResetLeaves : Prop := Clause.ResetState ∧ Clause.ResetMemoryWf

/-- The instructions that only read and write registers: their own operations never wait. -/
def Clause.registerOnly (i : Instr) : Prop :=
  (∃ f : FormC, i ∈ [.sadd f, .ssub f, .smul f, .smulh f, .sdiv f, .srem f, .sand f, .sor f, .sxor f, .sshl f, .sshr f, .ssra f, .smin f,
    .smax f, .scmp f, .ssel f, .smov f, .sli f, .saddr f, .sclz f, .spopc f, .sbfe f, .sbfi f, .sget f, .getpc f, .feat f]) ∨
  (∃ f : FormA, i ∈ [.vadd f, .vsub f, .vmul f, .vmulh f, .vmad f, .vmin f, .vmax f, .vabs f, .vand f, .vor f, .vxor f, .vshl f, .vshr f,
    .vsra f, .vsrar f, .vadds f, .vsubs f, .vdot2s f, .vcmp f, .vsel f, .vbfe f, .vpopc f, .fadd f, .fsub f, .fmul f, .ffma f, .fmin f,
    .fmax f, .fcmp f, .fclass f, .frcp f, .frsq f, .fexp2 f, .flog2 f, .pkadd f, .pkfma f, .vslide f, .vshuf f, .vbcast f, .vreduce f,
    .vscan f, .vote f, .pset f, .pmov f, .vmatch f]) ∨
  (∃ f : FormW, i ∈ [.vmov f, .fcvt f, .icvt f]) ∨ (∃ f : FormB, i = .vli f) ∨ (∃ f : FormH, i = .nop f) ∨ (∃ f : FormD, i = .pref f)

/-- What every instruction does where it does not run its own operation: it is skipped when no lane is in its effective mask (R85),
with its place in the plan of a rewrite window (R402); it waits at a hazard (R82, R95, R193, R247, R305), where it is not a member that
runs its group's replacements (R404); and a warp-uniform one without every live lane raises class 0x06 (R41). A warp that has been
waiting at it goes on waiting or becomes ready, and issues it when it is selected again (R332). -/
def Clause.SkipAndUniformity : Prop :=
  ∀ (i : Instr) (s : State) (t : View), i.isEvent = false → s.view = some t → t.cl.todo ≠ [] →
    (t.eff = 0 → t.w.waiting = none → exec i s = .next (t.taken i).advance.close) ∧
    (t.eff = 0 → t.w.waiting ≠ none → exec i s = .next t.polled.close) ∧
    (t.eff ≠ 0 → t.hazard i = true → (t.inWindow i = true → ∀ r a l b, t.w.plan.head? ≠ some (.last r a l b)) →
      exec i s = .next (t.stalled .result).close) ∧
    (t.eff ≠ 0 → t.hazard i = false → isUniform i = true → t.eff ≠ t.w.liveLanes → t.w.waiting = none →
      Raises i s t (flt 0x06 0x00)) ∧
    (t.eff ≠ 0 → t.w.waiting ≠ none → ∃ s', exec i s = .next s' ∧ (s' = t.polled.close ∨ ∃ (t' : View) (k : WaitKind), s' = (t'.stalled k).close)) ∧
    (t.w.waiting ≠ none → t.hazard i = false → Clause.registerOnly i ∨ (isUniform i = true ∧ t.eff ≠ t.w.liveLanes) →
      exec i s = .next t.polled.close)

/-- The scoreboard (R82, R95, R193, R247, R305): an instruction waits for an outstanding load whose destination it reads or writes; for an
operation under way whose results it reads or writes, whose sources it would write, or whose handles it names; for an acquire, a
seq_cst store of the warp and, in a clause of class 7, the instruction before it; and for nothing else. -/
def Clause.Scoreboard : Prop :=
  ∀ (t : View) (i : Instr),
    let vs := i.groups.flatMap grpRegs
    let ss := readsS i ++ writesS i
    let ps := readsP i ++ writesP i
    let hs := (tileHandles i).1 ++ (tileHandles i).2 ++ t.blk.pairHandle i
    (t.hazard i = true ↔
      (∃ ld ∈ t.w.loads, ld.acq = true ∨ (∃ r n x, ld.dst = .v r n ∧ x ∈ vs ∧ r ≤ x ∧ x < r + n) ∨ ∃ r, ld.dst = .s r ∧ r ∈ ss) ∨
      (∃ o ∈ t.w.ops, o.acquires = true ∨ (∃ r ∈ o.holds.wv, r ∈ vs) ∨ (∃ r ∈ o.holds.ws, r ∈ ss) ∨ (∃ r ∈ o.holds.wp, r ∈ ps) ∨
        (∃ r ∈ o.holds.rv, r ∈ writesV i) ∨ (∃ h ∈ o.holds.wh, h ∈ hs) ∨ (flagCsr i = true ∧ o.setsFlags = true)) ∨
      (∃ o, BufEntry.store o ∈ t.w.buf ∧ o.sc = true) ∨ t.dev.netSc t.core t.w.num = true ∨
      (t.cl.word.extractLsb' 21 3 = 7 ∧
        ((∃ ld ∈ t.w.loads, t.cl.start ≤ ld.seq) ∨ (∃ o ∈ t.w.ops, t.cl.start ≤ o.seq) ∨
          ∃ c ∈ t.blk.bankChanges, c.warp = t.w.num ∧ t.cl.start ≤ c.seq)))

/-- Retiring inside a clause and at its end (R80): the warp goes on at the next instruction or at the next header, and nothing
else changes but its count of issued instructions (R426). -/
def Clause.RetireFrame : Prop := ∀ t : View, OnlyMovesOn t t.retire

/-- What an instruction that does not run its own operation does, what it waits for, and what retiring changes (R41, R80, R82, R85, R95,
R305, R332, R426). -/
def Obligations.IssueRules : Prop := Clause.SkipAndUniformity ∧ Clause.Scoreboard ∧ Clause.RetireFrame

/-- The words `pre` and then `w` are decoded as the illegal-encoding row, at their first word: in a warp of 128 registers, and
whatever follows them. -/
def Clause.Illegal (pre : List Word32) (w : Word32) : Prop :=
  ∀ rest : List Word32, ∃ det : BitVec 16,
    decodeFor 128 (pre ++ w :: rest) = some { instr := .illegalEncoding det 0, len := pre.length + 1, base := pre.length }

/-- The word `w` is illegal alone, and after an IMM prefix. -/
def Clause.IllegalBoth (w : Word32) : Prop :=
  Clause.Illegal [] w ∧ ∀ p : BitVec 24, Clause.Illegal [0xAE#8 ++ p] w

/-- The word `w` is illegal after an IMM prefix. -/
def Clause.NoImm (w : Word32) : Prop := ∀ p : BitVec 24, Clause.Illegal [0xAE#8 ++ p] w

/-! ### Scalar instructions -/

/-- Operand B of the scalar instructions (R131). -/
def Clause.OperandB : Prop :=
  ∀ (w : Warp) (f : FormC) (sg : Bool),
    (f.imm = none → f.fn = 0 → w.operandB f sg = w.rs f.b.toNat) ∧
    (f.imm = none → f.fn ≠ 0 → w.operandB f sg = if sg then f.fn.signExtend 64 else f.fn.setWidth 64) ∧
    (∀ p, f.imm = some p → w.operandB f sg = if sg then (p ++ f.fn).signExtend 64 else (p ++ f.fn).setWidth 64)

/-- Reading and writing registers (R89): s0 reads 0 and p0 all ones, and writes to them are discarded; any other register of a
file in canonical form reads what was written, and every other register as before. -/
def Clause.ScalarPredicateRegisters : Prop :=
  ∀ (w : Warp) (n : Nat) (x : Word64) (y m : Word32),
    w.rs 0 = 0 ∧ w.ws 0 x = w ∧ w.rp 0 = 0xFFFFFFFF ∧ w.wp 0 m y = w ∧
    (n ≠ 0 → Cells.wf w.s = true → (w.ws n x).rs n = x) ∧ (∀ k, k ≠ n → (w.ws n x).rs k = w.rs k) ∧
    (n ≠ 0 → Cells.wf w.p = true → (w.wp n m y).rp n = (w.rp n &&& ~~~m) ||| (y &&& m)) ∧ (∀ k, k ≠ n → (w.wp n m y).rp k = w.rp k) ∧
    (∀ l, l < 32 → Cells.wf w.v = true → (w.wv n l y).rv n l = y) ∧
    (∀ l k j, l < 32 → j < 32 → (k, j) ≠ (n, l) → (w.wv n l y).rv k j = w.rv k j)

/-- Register writes keep the canonical form of the three files. -/
def Clause.RegisterFilesWf : Prop :=
  ∀ (w : Warp) (n l : Nat) (x : Word64) (y m : Word32),
    Cells.wf w.s = true → Cells.wf w.p = true → Cells.wf w.v = true →
      Cells.wf (w.ws n x).s = true ∧ Cells.wf (w.wp n m y).p = true ∧ Cells.wf (w.wv n l y).v = true

/-- SADD, SSUB, SMUL, SAND, SOR and SXOR write s(d) modulo 2^64 (R133). -/
def Clause.ScalarArithmetic : Prop :=
  ∀ (f : FormC) (s : State) (t : View),
    let a := t.w.rs f.a.toNat
    let b := t.w.operandB f true
    let put (x : Word64) : View := t.setW (t.w.ws f.d.toNat x)
    (Runs (.sadd f) s t → Completes (.sadd f) s (put (BitVec.ofNat 64 (a.toNat + b.toNat)))) ∧
    (Runs (.ssub f) s t → Completes (.ssub f) s (put (BitVec.ofInt 64 (a.toNat - b.toNat)))) ∧
    (Runs (.smul f) s t → Completes (.smul f) s (put (BitVec.ofNat 64 (a.toNat * b.toNat)))) ∧
    (Runs (.sand f) s t → Completes (.sand f) s (put (a &&& b))) ∧
    (Runs (.sor f) s t → Completes (.sor f) s (put (a ||| b))) ∧
    (Runs (.sxor f) s t → Completes (.sxor f) s (put (a ^^^ b)))

/-- SSHL, SSHR and SSRA: a count of 64 or more gives 0, 0, or 64 copies of bit 63 (R133). -/
def Clause.ScalarShifts : Prop :=
  ∀ (f : FormC) (s : State) (t : View),
    let a := t.w.rs f.a.toNat
    let b := (t.w.operandB f false).toNat
    let put (x : Word64) : View := t.setW (t.w.ws f.d.toNat x)
    (Runs (.sshl f) s t → Completes (.sshl f) s (put (if 64 ≤ b then 0 else BitVec.ofNat 64 (a.toNat * 2 ^ b)))) ∧
    (Runs (.sshr f) s t → Completes (.sshr f) s (put (if 64 ≤ b then 0 else BitVec.ofNat 64 (a.toNat / 2 ^ b)))) ∧
    (Runs (.ssra f) s t → Completes (.ssra f) s
      (put (if 64 ≤ b then (if a.msb then BitVec.allOnes 64 else 0) else BitVec.ofInt 64 (a.toInt / 2 ^ b))))

/-- SMULH, SDIV, SREM, SMIN and SMAX in the signedness that fn names, with the fixed results at their limits (R75, R134). -/
def Clause.ScalarDivision : Prop :=
  ∀ (f : FormC) (s : State) (t : View),
    let a := t.w.rs f.a.toNat
    let b := t.w.rs f.b.toNat
    let put (x : Word64) : View := t.setW (t.w.ws f.d.toNat x)
    (Runs (.smulh f) s t → Completes (.smulh f) s
      (put (if f.fn = 0 then BitVec.ofInt 64 (a.toInt * b.toInt / 2 ^ 64) else BitVec.ofNat 64 (a.toNat * b.toNat / 2 ^ 64)))) ∧
    (Runs (.sdiv f) s t →
      (b = 0 → Completes (.sdiv f) s (put (BitVec.allOnes 64))) ∧
      (b ≠ 0 → f.fn = 0 → Completes (.sdiv f) s (put (BitVec.ofInt 64 (a.toInt.tdiv b.toInt)))) ∧
      (b ≠ 0 → f.fn ≠ 0 → Completes (.sdiv f) s (put (BitVec.ofNat 64 (a.toNat / b.toNat)))) ∧
      (f.fn = 0 → a = BitVec.intMin 64 → b = BitVec.allOnes 64 → Completes (.sdiv f) s (put (BitVec.intMin 64)))) ∧
    (Runs (.srem f) s t →
      (b = 0 → Completes (.srem f) s (put a)) ∧
      (b ≠ 0 → f.fn = 0 → Completes (.srem f) s (put (BitVec.ofInt 64 (a.toInt.tmod b.toInt)))) ∧
      (b ≠ 0 → f.fn ≠ 0 → Completes (.srem f) s (put (BitVec.ofNat 64 (a.toNat % b.toNat)))) ∧
      (f.fn = 0 → a = BitVec.intMin 64 → b = BitVec.allOnes 64 → Completes (.srem f) s (put 0))) ∧
    (Runs (.smin f) s t → Completes (.smin f) s
      (put (if f.fn = 0 then BitVec.ofInt 64 (min a.toInt b.toInt) else BitVec.ofNat 64 (min a.toNat b.toNat)))) ∧
    (Runs (.smax f) s t → Completes (.smax f) s
      (put (if f.fn = 0 then BitVec.ofInt 64 (max a.toInt b.toInt) else BitVec.ofNat 64 (max a.toNat b.toNat))))

/-- The signedness of SMULH, SDIV, SREM, SMIN and SMAX is 0 or 1, and they take no immediate (R134). -/
def Clause.ScalarSignedness : Prop :=
  ∀ w : Word32, (w.extractLsb' 24 8).toNat ∈ [0x03, 0x04, 0x05, 0x0C, 0x0D] →
    (2 ≤ (w.extractLsb' 0 6).toNat → Clause.Illegal [] w) ∧ Clause.NoImm w

/-- The scalar arithmetic, its shifts, and division with its limits (R75, R133, R134). -/
def Obligations.ScalarIntegers : Prop :=
  Clause.ScalarArithmetic ∧ Clause.ScalarShifts ∧ Clause.ScalarDivision ∧ Clause.ScalarSignedness

/-- SCMP writes the result for the lanes of E (R135); SSEL chooses by the predicate over the lanes of E (R136). -/
def Clause.ScalarCompareSelect : Prop :=
  ∀ (f : FormC) (s : State) (t : View),
    let a := t.w.rs f.a.toNat
    let b := t.w.rs f.b.toNat
    let conds : List Bool := [a == b, a != b, decide (a.toInt < b.toInt), decide (a.toInt ≤ b.toInt), decide (b.toInt < a.toInt),
      decide (b.toInt ≤ a.toInt), decide (a.toNat < b.toNat), decide (a.toNat ≤ b.toNat), decide (b.toNat < a.toNat),
      decide (b.toNat ≤ a.toNat)]
    let p := t.w.rp (f.fn.extractLsb' 0 3).toNat
    let bit (l : Nat) : Bool := p.getLsbD l != f.fn.getLsbD 3
    (Runs (.scmp f) s t → f.fn.toNat < 10 →
      Completes (.scmp f) s (t.setW (t.w.wp (f.d.extractLsb' 0 3).toNat t.eff
        (if conds.getD f.fn.toNat false then 0xFFFFFFFF else 0)))) ∧
    (Runs (.ssel f) s t →
      (f.fn.extractLsb' 4 2 = 0 →
        Completes (.ssel f) s (t.setW (t.w.ws f.d.toNat (if bit ((lanes t.eff).headD 0) then a else b)))) ∧
      (f.fn.extractLsb' 4 2 = 1 →
        Completes (.ssel f) s (t.setW (t.w.ws f.d.toNat (if (lanes t.eff).any bit then a else b)))) ∧
      (f.fn.extractLsb' 4 2 = 2 →
        Completes (.ssel f) s (t.setW (t.w.ws f.d.toNat (if (lanes t.eff).all bit then a else b)))))

/-- SMOV, SLI, SADDR, SCLZ, SPOPC (R137, R138). -/
def Clause.ScalarMoves : Prop :=
  ∀ (f : FormC) (s : State) (t : View),
    let a := t.w.rs f.a.toNat
    let put (x : Word64) : View := t.setW (t.w.ws f.d.toNat x)
    (Runs (.smov f) s t → Completes (.smov f) s (put a)) ∧
    (Runs (.sli f) s t → Completes (.sli f) s (put (match f.imm with
      | none => f.w18.signExtend 64
      | some p => (p ++ f.w18).signExtend 64))) ∧
    (Runs (.saddr f) s t → Completes (.saddr f) s
      (put (BitVec.ofNat 64 ((a.toNat + (t.w.rs f.b.toNat).toNat * 2 ^ (f.fn.toNat % 8)) % 2 ^ 55)))) ∧
    (Runs (.sclz f) s t → ∃ n, Completes (.sclz f) s (put (BitVec.ofNat 64 n)) ∧ n ≤ 64 ∧
      (∀ i, i < n → a.getMsbD i = false) ∧ (n < 64 → a.getMsbD n = true)) ∧
    (Runs (.spopc f) s t → Completes (.spopc f) s
      (put (BitVec.ofNat 64 ((List.range 64).map (fun i => (a.getLsbD i).toNat)).sum)))

/-- SBFE and SBFI take their field from position [5:0] and length [13:8] + 1 of s(b) (R139). -/
def Clause.ScalarFields : Prop :=
  ∀ (f : FormC) (s : State) (t : View),
    let a := t.w.rs f.a.toNat
    let b := t.w.rs f.b.toNat
    let pos := b.toNat % 64
    let len := b.toNat / 256 % 64 + 1
    let fld := a.toNat / 2 ^ pos % 2 ^ len
    let m := BitVec.ofNat 64 ((2 ^ len - 1) * 2 ^ pos)
    (Runs (.sbfe f) s t → Completes (.sbfe f) s (t.setW (t.w.ws f.d.toNat
      (if f.fn = 1 ∧ 2 ^ (len - 1) ≤ fld then BitVec.ofInt 64 ((fld : Int) - 2 ^ len) else BitVec.ofNat 64 fld)))) ∧
    (Runs (.sbfi f) s t → Completes (.sbfi f) s (t.setW (t.w.ws f.d.toNat
      ((t.w.rs f.d.toNat &&& ~~~m) ||| (BitVec.ofNat 64 (a.toNat * 2 ^ pos) &&& m)))))

/-- The fields of SCMP, SSEL, SMOV, SADDR, SCLZ, SPOPC, SBFE and SBFI that must be zero or in range, and that they take no immediate
(R135 to R139). -/
def Clause.ScalarFieldRanges : Prop :=
  ∀ w : Word32,
    let op := (w.extractLsb' 24 8).toNat
    let fn := (w.extractLsb' 0 6).toNat
    (op = 0x0E → 10 ≤ fn ∨ 8 ≤ (w.extractLsb' 18 6).toNat → Clause.Illegal [] w) ∧
    (op = 0x0F → 48 ≤ fn → Clause.Illegal [] w) ∧
    (op ∈ [0x10, 0x13, 0x14] → w.extractLsb' 0 12 ≠ 0 → Clause.Illegal [] w) ∧
    (op = 0x12 → 8 ≤ fn → Clause.Illegal [] w) ∧ (op = 0x15 → 2 ≤ fn → Clause.Illegal [] w) ∧
    (op = 0x16 → fn ≠ 0 → Clause.Illegal [] w) ∧
    (op ∈ [0x0E, 0x0F, 0x10, 0x12, 0x13, 0x14, 0x15, 0x16] → Clause.NoImm w)

/-- Scalar comparison and selection, moves, counts and fields (R135 to R139). -/
def Obligations.ScalarSelectsMoves : Prop :=
  Clause.ScalarCompareSelect ∧ Clause.ScalarMoves ∧ Clause.ScalarFields ∧ Clause.ScalarFieldRanges

/-- SGET writes a 64-bit value: for the numbers 1 to 4, 8 to 10, 12, 14, 16 to 19 and 21 the special register of R122 (R140); GETPC the address of its base word plus 4 times its offset (R161); FEAT a
capability word (R390); NOP and PREF have no effect beyond issuing (R161, R273). -/
def Obligations.SpecialReads : Prop :=
  (∀ (f : FormC) (s : State) (t : View), Runs (.sget f) s t →
    ∃ x, Completes (.sget f) s (t.setW (t.w.ws f.d.toNat x)) ∧
      (f.imm = none →
        (f.w18 = 1 → x = BitVec.ofNat 64 t.w.num) ∧ (f.w18 = 2 → x = BitVec.ofNat 64 (t.w.num % 4)) ∧
        (f.w18 = 3 → x = t.blk.launch.block.setWidth 64) ∧ (f.w18 = 4 → x = t.blk.launch.nblocks.setWidth 64) ∧
        (f.w18 = 8 → x = BitVec.ofNat 64 t.core) ∧ (f.w18 = 9 → x = BitVec.ofNat 64 (t.core / 8)) ∧
        (f.w18 = 10 → x = BitVec.ofNat 64 (t.core / 40)) ∧ (f.w18 = 12 → x = BitVec.ofNat 64 t.blk.launch.ctx) ∧
        (f.w18 = 14 → x = t.w.runMask.setWidth 64) ∧ (f.w18 = 16 → x = BitVec.ofNat 64 t.w.depth) ∧
        (f.w18 = 17 → x = s.clock) ∧ (f.w18 = 18 → x = t.blk.launch.frame) ∧ (f.w18 = 19 → x = t.blk.launch.record) ∧
        (f.w18 = 21 → x = BitVec.ofNat 64 t.blk.launch.nwarps))) ∧
  (∀ (f : FormC) (s : State) (t : View), Runs (.getpc f) s t →
    Completes (.getpc f) s (t.setW (t.w.ws f.d.toNat
      (BitVec.ofNat 64 ((t.baseAddr false + BitVec.ofInt 64 (4 * immInt f.fn f.imm)).toNat % 2 ^ 55))))) ∧
  (∀ (f : FormC) (s : State) (t : View), Runs (.feat f) s t →
    Completes (.feat f) s (t.setW (t.w.ws f.d.toNat (t.dev.featWord (immNat f.w18 f.imm))))) ∧
  (∀ (f : FormH) (s : State) (t : View), Runs (.nop f) s t → Completes (.nop f) s t) ∧
  (∀ (f : FormD) (s : State) (t : View), Runs (.pref f) s t → Completes (.pref f) s t)

/-- The frame of the scalar register instructions: nothing but their destination register changes, no flag, no other register
and no byte of memory. -/
def Obligations.ScalarFrame : Prop :=
  ∀ (i : Instr) (f : FormC) (s : State) (t : View),
    i ∈ [.sadd f, .ssub f, .smul f, .smulh f, .sdiv f, .srem f, .sand f, .sor f, .sxor f, .sshl f, .sshr f, .ssra f, .smin f,
      .smax f, .ssel f, .smov f, .sli f, .saddr f, .sclz f, .spopc f, .sbfe f, .sbfi f, .sget f, .getpc f, .feat f] →
    Runs i s t →
      ∃ w', Completes i s (t.setW w') ∧ OnlyScalars t.w w' [f.d.toNat] ∧ SameMemory s ((t.setW w').retire.close)

/-! ### Vector instructions -/

/-- Writing v(d), a pair or a group in the lanes of E changes those lanes of those registers and no other (R54, R119, R163). -/
def Clause.VectorWrites : Prop :=
  ∀ (w : Warp) (d : Nat) (e : LaneMask), Cells.wf w.v = true → ∀ r l, l < 32 →
    (∀ g, (w.wvEach d g (lanes e)).rv r l = if e.getLsbD l = true ∧ r = d then g l else w.rv r l) ∧
    (∀ g, (w.wv64Each d g (lanes e)).rv r l =
      if e.getLsbD l = true ∧ r = d then (g l).extractLsb' 0 32
      else if e.getLsbD l = true ∧ r = d + 1 then (g l).extractLsb' 32 32 else w.rv r l) ∧
    (∀ g k, (w.wvGroup d g (lanes e) k).rv r l = if e.getLsbD l = true ∧ d ≤ r ∧ r < d + k then g (r - d) l else w.rv r l)

/-- Reading and writing the register files (R54, R89, R119, R163). -/
def Obligations.RegisterFiles : Prop := Clause.ScalarPredicateRegisters ∧ Clause.RegisterFilesWf ∧ Clause.VectorWrites

/-- An immediate B stands in place of s(b), never beside it (R131). -/
def Clause.OperandBFields : Prop :=
  ∀ w : Word32,
    let op := (w.extractLsb' 24 8).toNat
    op ∈ [0x00, 0x01, 0x02, 0x06, 0x07, 0x08, 0x09, 0x0A, 0x0B] → w.extractLsb' 6 6 ≠ 0 →
      (w.extractLsb' 0 6 ≠ 0 → Clause.Illegal [] w) ∧ Clause.NoImm w

/-- Operand b of the vector instructions: v(b), or s(b) for every lane with BS = 1 (R88, R163); a pair holds its low word in the
even register (R54). -/
def Clause.VectorOperandB : Prop :=
  ∀ (w : Warp) (f : FormA) (l : Nat),
    (f.bs = 0 → w.opB f l = w.rv f.b.toNat l ∧ w.opB64 f l = w.rv (f.b.toNat + 1) l ++ w.rv f.b.toNat l) ∧
    (f.bs = 1 → w.opB f l = (w.rs (f.b.toNat % 64)).setWidth 32 ∧ w.opB64 f l = w.rs (f.b.toNat % 64))

/-- Operand B of the scalar and of the vector instructions (R54, R88, R131, R163). -/
def Obligations.OperandsB : Prop := Clause.OperandB ∧ Clause.OperandBFields ∧ Clause.VectorOperandB

/-- VADD, VSUB, VMUL, VMAD and VABS compute each element modulo 2^w (R75, R166). -/
def Clause.VectorArithmetic : Prop :=
  ∀ (f : FormA) (s : State) (t : View),
    let sh := [Shape.one, .half, .quarter, .pair].getD f.var.toNat .one
    (Runs (.vadd f) s t → Completes (.vadd f) s (t.laneWrite f sh (fun n a b _ => BitVec.ofNat n (a.toNat + b.toNat)))) ∧
    (Runs (.vsub f) s t → Completes (.vsub f) s (t.laneWrite f sh (fun n a b _ => BitVec.ofInt n ((a.toNat : Int) - b.toNat)))) ∧
    (Runs (.vmul f) s t → Completes (.vmul f) s (t.laneWrite f sh (fun n a b _ => BitVec.ofNat n (a.toNat * b.toNat)))) ∧
    (Runs (.vmad f) s t → Completes (.vmad f) s (t.laneWrite f sh (fun n a b d => BitVec.ofNat n (a.toNat * b.toNat + d.toNat)))) ∧
    (Runs (.vabs f) s t → Completes (.vabs f) s (t.laneWrite f sh (fun n a _ _ => BitVec.ofInt n a.toInt.natAbs)))

/-- VMULH, VMIN and VMAX in the named type; VADDS and VSUBS give the value of the type nearest the exact result and set SAT when
that is another; VDOT2S saturates once to i32 (R75, R166, R168). -/
def Obligations.VectorNamedTypes : Prop :=
  ∀ (f : FormA) (s : State) (t : View),
    let signed : Bool := f.var == 0 || f.var == 2
    let sh := if f.var.toNat < 2 then Shape.one else .half
    let val (n : Nat) (x : BitVec n) : Int := if signed then x.toInt else x.toNat
    let lo (n : Nat) : Int := if signed then -2 ^ (n - 1) else 0
    let hi (n : Nat) : Int := if signed then 2 ^ (n - 1) - 1 else 2 ^ n - 1
    let one (op : Int → Int → Int) (n : Nat) (x y : BitVec n) : BitVec n × Bool :=
      let z := op (val n x) (val n y)
      if z < lo n then (BitVec.ofInt n (lo n), true) else if hi n < z then (BitVec.ofInt n (hi n), true) else (BitVec.ofInt n z, false)
    let sat (op : Int → Int → Int) (l : Nat) : Flagged Word32 :=
      let a := t.w.rv f.a.toNat l
      let b := t.w.opB f l
      if f.var.toNat < 2 then { val := (one op 32 a b).1, fp := 0, sat := (one op 32 a b).2 }
      else
        let p (k : Nat) : BitVec 16 × Bool := one op 16 (a.extractLsb' (16 * k) 16) (b.extractLsb' (16 * k) 16)
        { val := (p 1).1 ++ (p 0).1, fp := 0, sat := (p 1).2 || (p 0).2 }
    let half (u : Bool) (x : Word32) (k : Nat) : Int :=
      if u then (x.extractLsb' (16 * k) 16).toNat else (x.extractLsb' (16 * k) 16).toInt
    let dot (l : Nat) : Int :=
      half (f.var == 1) (t.w.rv f.a.toNat l) 0 * half (f.var != 0) (t.w.opB f l) 0 +
        half (f.var == 1) (t.w.rv f.a.toNat l) 1 * half (f.var != 0) (t.w.opB f l) 1 + (t.w.rv f.d.toNat l).toInt
    (Runs (.vmulh f) s t → Completes (.vmulh f) s (t.laneWrite f sh (fun n a b _ => BitVec.ofInt n (val n a * val n b / 2 ^ n)))) ∧
    (Runs (.vmin f) s t → Completes (.vmin f) s (t.laneWrite f sh (fun n a b _ => BitVec.ofInt n (min (val n a) (val n b))))) ∧
    (Runs (.vmax f) s t → Completes (.vmax f) s (t.laneWrite f sh (fun n a b _ => BitVec.ofInt n (max (val n a) (val n b))))) ∧
    (Runs (.vadds f) s t → Completes (.vadds f) s (t.flaggedWrite f.d.toNat (sat (· + ·)))) ∧
    (Runs (.vsubs f) s t → Completes (.vsubs f) s (t.flaggedWrite f.d.toNat (sat (· - ·)))) ∧
    (Runs (.vdot2s f) s t → Completes (.vdot2s f) s (t.flaggedWrite f.d.toNat (fun l =>
      { val := BitVec.ofInt 32 (if dot l < -2 ^ 31 then -2 ^ 31 else if 2 ^ 31 ≤ dot l then 2 ^ 31 - 1 else dot l), fp := 0,
        sat := decide (dot l < -2 ^ 31 ∨ 2 ^ 31 ≤ dot l) }))) ∧
    ∀ w : Word32, w.extractLsb' 24 8 = 0x39 → w.extractLsb' 1 2 = 3 → Clause.Illegal [] w

/-- The bitwise instructions, the shifts and VPOPC (R75, R76, R166, R167): a count of the width or more leaves zeros, or copies
of the sign. -/
def Clause.VectorBitsShifts : Prop :=
  ∀ (f : FormA) (s : State) (t : View),
    let bits := if f.var = 1 then Shape.pair else .one
    let sh := [Shape.one, .half, .pair].getD f.var.toNat .one
    (Runs (.vand f) s t → Completes (.vand f) s (t.laneWrite f bits (fun _ a b _ => a &&& b))) ∧
    (Runs (.vor f) s t → Completes (.vor f) s (t.laneWrite f bits (fun _ a b _ => a ||| b))) ∧
    (Runs (.vxor f) s t → Completes (.vxor f) s (t.laneWrite f bits (fun _ a b _ => a ^^^ b))) ∧
    (Runs (.vshl f) s t → Completes (.vshl f) s (t.laneWrite f sh (fun n a b _ =>
      if n ≤ b.toNat then 0 else BitVec.ofNat n (a.toNat * 2 ^ b.toNat)))) ∧
    (Runs (.vshr f) s t → Completes (.vshr f) s (t.laneWrite f sh (fun n a b _ =>
      if n ≤ b.toNat then 0 else BitVec.ofNat n (a.toNat / 2 ^ b.toNat)))) ∧
    (Runs (.vsra f) s t → Completes (.vsra f) s (t.laneWrite f sh (fun n a b _ =>
      if n ≤ b.toNat then (if a.msb then BitVec.allOnes n else 0) else BitVec.ofInt n (a.toInt / 2 ^ b.toNat)))) ∧
    (Runs (.vsrar f) s t → Completes (.vsrar f) s (t.laneWrite f sh (fun n a b _ =>
      let k := min b.toNat n
      BitVec.ofInt n (a.toInt.sign * ((2 * a.toInt.natAbs + 2 ^ k) / 2 ^ (k + 1) : Nat))))) ∧
    (Runs (.vpopc f) s t → Completes (.vpopc f) s (t.laneWrite f (if f.var = 1 then .half else .one) (fun n a _ _ =>
      BitVec.ofNat n (((List.range n).map (fun i => (a.getLsbD i).toNat)).sum))))

/-- The vector arithmetic modulo 2^w, the bitwise instructions and the shifts (R75, R76, R166, R167). -/
def Obligations.VectorIntegers : Prop := Clause.VectorArithmetic ∧ Clause.VectorBitsShifts

/-- The fields of VBFE, VCMP, VMOV and VLI that must be zero or in range (R169, R170, R172, R173). -/
def Clause.SelectMoveFields : Prop :=
  ∀ w : Word32,
    let op := (w.extractLsb' 24 8).toNat
    let sel := (w.extractLsb' 0 6).toNat
    (op ∈ [0x3A, 0x3E] → w.getLsbD 2 = true → Clause.Illegal [] w) ∧
    (op = 0x3A → 6 ≤ (w.extractLsb' 20 4).toNat → Clause.Illegal [] w) ∧
    (op = 0x3C → 2 ≤ sel → Clause.Illegal [] w) ∧
    (op = 0x3C → sel = 0 → w.extractLsb' 8 2 ≠ w.extractLsb' 6 2 → Clause.Illegal [] w) ∧
    (op = 0x3C → sel = 1 → w.getLsbD 9 = true ∨ w.extractLsb' 6 2 ≠ 0 ∨ w.getLsbD 16 = true → Clause.Illegal [] w) ∧
    (op = 0x3D → w.extractLsb' 10 7 ≠ 0 → Clause.IllegalBoth w)

/-- What VCMP, VSEL, VMOV, VLI and VBFE write (R169 to R173). -/
def Clause.SelectMoveValues : Prop :=
  (∀ (f : FormA) (s : State) (t : View),
    let a (l : Nat) : Word32 := t.w.rv f.a.toNat l
    let b (l : Nat) : Word32 := t.w.opB f l
    let val (x : Word32) : Int := if f.var = 0 then x.toInt else x.toNat
    let conds (l : Nat) : List Bool := [a l == b l, a l != b l, decide (val (a l) < val (b l)), decide (val (a l) ≤ val (b l)),
      decide (val (b l) < val (a l)), decide (val (b l) ≤ val (a l))]
    let len (l : Nat) : Nat := (b l).toNat / 256 % 32 + 1
    let fld (l : Nat) : Nat := (a l).toNat / 2 ^ ((b l).toNat % 32) % 2 ^ len l
    (Runs (.vcmp f) s t → Completes (.vcmp f) s
      (t.setW (t.w.wp (f.d.extractLsb' 0 3).toNat t.eff (maskOf (fun l => (conds l).getD (f.d.extractLsb' 3 4).toNat false))))) ∧
    (Runs (.vsel f) s t → Completes (.vsel f) s (t.vectorWrite f.d.toNat (fun l =>
      if (t.w.rp (f.var ++ f.bs).toNat).getLsbD l then a l else t.w.rv f.b.toNat l))) ∧
    (Runs (.vbfe f) s t → Completes (.vbfe f) s (t.vectorWrite f.d.toNat (fun l =>
      if f.var = 1 ∧ 2 ^ (len l - 1) ≤ fld l then BitVec.ofInt 32 ((fld l : Int) - 2 ^ len l) else BitVec.ofNat 32 (fld l))))) ∧
  (∀ (f : FormW) (s : State) (t : View), Runs (.vmov f) s t →
    (f.sel = 0 → Completes (.vmov f) s (t.setW (t.w.wvGroup f.d.toNat (fun k l => t.w.rv (f.a.toNat + k) l) t.effLanes (grpW f.wd)))) ∧
    (f.sel = 1 → Completes (.vmov f) s (t.setW (t.w.wvGroup f.d.toNat
      (fun k _ => (t.w.rs f.a.toNat).extractLsb' (32 * k) 32) t.effLanes (grpW f.wd))))) ∧
  (∀ (f : FormB) (s : State) (t : View), Runs (.vli f) s t → Completes (.vli f) s (t.vectorWrite f.d.toNat (fun _ =>
    match f.imm with
    | none => f.imm10.signExtend 32
    | some p => (p ++ f.imm10).setWidth 32)))

/-- VCMP, VSEL, VMOV, VLI and VBFE (R169 to R173). -/
def Obligations.VectorSelectMove : Prop := Clause.SelectMoveValues ∧ Clause.SelectMoveFields

/-- The lane instructions on FP32 round the exact result once to nearest even and add their flags; PKADD and PKFMA do so on each
half (R70, R174). FMIN and FMAX follow R71, FCMP R175. -/
def Obligations.FloatLanes : Prop :=
  ∀ (f : FormA) (s : State) (t : View),
    let a (l : Nat) : Nat := (t.w.rv f.a.toNat l).toNat
    let b (l : Nat) : Nat := (t.w.opB f l).toNat
    let d (l : Nat) : Nat := (t.w.rv f.d.toNat l).toNat
    let put (g : Nat → Flagged Nat) : View := t.flaggedWrite f.d.toNat (fun l => (g l).word)
    let F := if f.var = 0 then fmtBF16 else fmtF16
    let both (g : Nat → Nat → Flagged Nat) : View := t.flaggedWrite f.d.toNat (fun l =>
      { val := BitVec.ofNat 32 ((g 0 l).val + 65536 * (g 1 l).val), fp := (g 0 l).fp ||| (g 1 l).fp, sat := false })
    let h (x k : Nat) : Nat := x / 65536 ^ k % 65536
    (Runs (.fadd f) s t → Completes (.fadd f) s (put (fun l => fmtF32.result ((fmtF32.read (a l)).add (fmtF32.read (b l)))))) ∧
    (Runs (.fsub f) s t → Completes (.fsub f) s (put (fun l => fmtF32.result ((fmtF32.read (a l)).add (fmtF32.read (b l)).neg)))) ∧
    (Runs (.fmul f) s t → Completes (.fmul f) s (put (fun l => fmtF32.result ((fmtF32.read (a l)).mul (fmtF32.read (b l)))))) ∧
    (Runs (.ffma f) s t → Completes (.ffma f) s
      (put (fun l => fmtF32.result ((fmtF32.read (a l)).fma (fmtF32.read (b l)) (fmtF32.read (d l)))))) ∧
    (Runs (.fmin f) s t → Completes (.fmin f) s (put (fun l => fmtF32.minMax false (a l) (b l)))) ∧
    (Runs (.fmax f) s t → Completes (.fmax f) s (put (fun l => fmtF32.minMax true (a l) (b l)))) ∧
    (Runs (.frcp f) s t → Completes (.frcp f) s (put (fun l => frcp (a l)))) ∧
    (Runs (.frsq f) s t → Completes (.frsq f) s (put (fun l => frsq (a l)))) ∧
    (Runs (.fexp2 f) s t → Completes (.fexp2 f) s (put (fun l => fexp2 (a l)))) ∧
    (Runs (.flog2 f) s t → Completes (.flog2 f) s (put (fun l => flog2 (a l)))) ∧
    (Runs (.pkadd f) s t → Completes (.pkadd f) s
      (both (fun k l => F.result ((F.read (h (a l) k)).add (F.read (h (b l) k)))))) ∧
    (Runs (.pkfma f) s t → Completes (.pkfma f) s
      (both (fun k l => F.result ((F.read (h (a l) k)).fma (F.read (h (b l) k)) (F.read (h (d l) k)))))) ∧
    (Runs (.fclass f) s t → Completes (.fclass f) s (t.vectorWrite f.d.toNat (fun l => BitVec.ofNat 32 (2 ^ fmtF32.classBit (a l))))) ∧
    (Runs (.fcmp f) s t → Completes (.fcmp f) s (t.setW
      ((t.w.wp (f.d.extractLsb' 0 3).toNat t.eff (maskOf (fun l => (fmtF32.cmp (f.d.extractLsb' 3 4).toNat (a l) (b l)).val))).addFlags
        (flagsOf (t.effLanes.map (fun l => fmtF32.cmp (f.d.extractLsb' 3 4).toNat (a l) (b l)))) false)))

/-- Rounding to nearest (R57): a finite result lies within half a unit in the last place of the exact value, and equals it
where NX is clear. -/
def Obligations.RoundingNearest : Prop :=
  ∀ (F : FloatFmt) (neg : Bool) (m : Nat) (e : Int), F ∈ [fmtF32, fmtF16, fmtBF16, fmtE5M2] → m ≠ 0 →
    (F.round .ne neg m e).ovf = false →
      ∃ m' e', F.read (F.round .ne neg m e).bits = .fin neg m' e' ∧
        2 * |(m : ℚ) * 2 ^ e - (m' : ℚ) * 2 ^ e'| ≤ 2 ^ (max ((m.log2 : Int) + e - F.fb) F.qmin) ∧
        ((F.round .ne neg m e).nx = false ↔ (m : ℚ) * 2 ^ e = (m' : ℚ) * 2 ^ e')

/-- A NaN operand gives the canonical NaN, with IV only where an operand is signalling; infinite and zero operands and the special
cases of FRCP, FRSQ, FEXP2 and FLOG2 (R52, R53, R70, R71). -/
def Obligations.FloatSpecialValues : Prop :=
  (∀ a b : Nat, (fmtF32.read a).isNan = true ∨ (fmtF32.read b).isNan = true →
    let iv : FpFlags := if (fmtF32.read a).snan = true ∨ (fmtF32.read b).snan = true then 1 else 0
    fmtF32.addBits a b = { val := 0x7FC00000, fp := iv, sat := false } ∧
      fmtF32.subBits a b = { val := 0x7FC00000, fp := iv, sat := false } ∧
      fmtF32.mulBits a b = { val := 0x7FC00000, fp := iv, sat := false } ∧
      (fmtF32.minMax false a b).fp = iv ∧
      ((fmtF32.read b).isNan = false → (fmtF32.minMax false a b).val = b ∧ (fmtF32.minMax true a b).val = b) ∧
      (∀ k, k < 6 → (fmtF32.cmp k a b).val = decide (k = 1))) ∧
  fmtF32.addBits 0x7F800000 0xFF800000 = { val := 0x7FC00000, fp := 1, sat := false } ∧
  fmtF32.mulBits 0 0xFF800000 = { val := 0x7FC00000, fp := 1, sat := false } ∧
  fmtF32.addBits 0x80000000 0x80000000 = { val := 0x80000000, fp := 0, sat := false } ∧
  fmtF32.addBits 0 0x80000000 = { val := 0, fp := 0, sat := false } ∧
  (fmtF32.minMax false 0 0x80000000).val = 0x80000000 ∧ (fmtF32.minMax true 0x80000000 0).val = 0 ∧
  (fmtF32.cmp 0 0 0x80000000).val = true ∧
  frcp 0 = { val := 0x7F800000, fp := 2, sat := false } ∧ frcp 0x80000000 = { val := 0xFF800000, fp := 2, sat := false } ∧
  frcp 0xFF800000 = { val := 0x80000000, fp := 0, sat := false } ∧
  frsq 0x80000000 = { val := 0xFF800000, fp := 2, sat := false } ∧ frsq 0xBF800000 = { val := 0x7FC00000, fp := 1, sat := false } ∧
  frsq 0x7F800000 = { val := 0, fp := 0, sat := false } ∧
  fexp2 0xFF800000 = { val := 0, fp := 0, sat := false } ∧ fexp2 0x7F800000 = { val := 0x7F800000, fp := 0, sat := false } ∧
  flog2 0x80000000 = { val := 0xFF800000, fp := 2, sat := false } ∧ flog2 0xFF800000 = { val := 0x7FC00000, fp := 1, sat := false } ∧
  flog2 0x7F800000 = { val := 0x7F800000, fp := 0, sat := false }

/-- FCVT and ICVT convert element k of the source group into element k of the destination group, with every source read first
(R177 to R179); a NaN gives integer 0 and sets IV, and words beyond the integer type or infinite give its bound and set IV and SAT
(R77). -/
def Obligations.Conversions : Prop :=
  (∀ (f : FormW) (s : State) (t : View) (conv : Nat → Flagged Nat) (dw sw : Nat) (i : Instr),
    (i = .fcvt f ∧ (let D := [fmtF32, fmtF16, fmtBF16, fmtE5M2, fmtE4M3].getD (f.sel.extractLsb' 3 3).toNat fmtE4M3
      let S := [fmtF32, fmtF16, fmtBF16, fmtE5M2, fmtE4M3].getD (f.sel.extractLsb' 0 3).toNat fmtE4M3
      conv = fcvtBits1 D S ∧ dw = 1 + D.eb + D.fb ∧ sw = 1 + S.eb + S.fb)) ∨
    (i = .icvt f ∧ conv = icvtElem (f.sel.extractLsb' 0 4).toNat (if f.sel.extractLsb' 4 2 = 0 then .ne else .tz) ∧
      (dw, sw) = [(32, 32), (32, 32), (16, 32), (16, 32), (8, 32), (8, 32), (32, 32), (32, 32), (32, 16), (32, 16), (32, 8), (32, 8),
        (16, 32), (8, 32), (16, 32), (8, 32)].getD (f.sel.extractLsb' 0 4).toNat (32, 32)) →
    Runs i s t →
      let n := grpW f.wa * (32 / sw)
      let elem (l k : Nat) : Flagged Nat :=
        conv ((t.w.rv (f.a.toNat + k / (32 / sw)) l).toNat / 2 ^ (sw * (k % (32 / sw))) % 2 ^ sw)
      let all := t.effLanes.flatMap (fun l => (List.range n).map (elem l))
      Completes i s (t.setW ((t.w.wvGroup f.d.toNat
        (fun r l => groupWord dw r ((List.range n).map (fun k => (elem l k).val))) t.effLanes (grpW f.wd)).addFlags (flagsOf all) (satOf all)))) ∧
  (∀ x : Nat, (fmtF32.read x).isNan = true → ∀ c, c < 6 → (icvtElem c .ne x).val = 0 ∧ (icvtElem c .ne x).fp = 1) ∧
  icvtElem 0 .ne 0x4F000000 = { val := 0x7FFFFFFF, fp := 1, sat := true } ∧
  icvtElem 0 .tz 0xFF800000 = { val := 0x80000000, fp := 1, sat := true } ∧
  icvtElem 1 .ne 0xBF800000 = { val := 0, fp := 1, sat := true } ∧
  fcvtBits1 fmtE4M3 fmtF32 0x43FA0000 = { val := 0x7E, fp := 0x14, sat := false } ∧
  fcvtBits1 fmtE4M3 fmtF32 0x3A800000 = { val := 0x00, fp := 0x18, sat := false } ∧
  fcvtBits1 fmtE4M3 fmtF32 0xBE99999A = { val := 0xAA, fp := 0x10, sat := false } ∧
  fcvtBits1 fmtE4M3 fmtF32 0x7F800001 = { val := 0x7F, fp := 0x01, sat := false }

/-- VSLIDE, VSHUF and VBCAST read the lanes of the warp that have not exited, and 0 from the others (R180 to R183). -/
def Clause.CrossLaneMoves : Prop :=
  ∀ (f : FormA) (s : State) (t : View),
    let x (r j : Nat) : Word32 := if t.w.liveLanes.getLsbD j then t.w.rv r j else 0
    let a := f.a.toNat
    let x64 (j : Nat) : Word32 := if j < 32 then x a j else x (a + 1) (j - 32)
    let k := (t.w.rs (f.b.toNat % 64)).toNat
    let b (l : Nat) : Nat := (t.w.opB f l).toNat
    let first := (lanes t.eff).headD 0
    let cast (w j : Nat) : View := t.setW (t.w.wvGroup f.d.toNat (fun r _ => x (a + r) j) t.effLanes w)
    (Runs (.vslide f) s t →
      (f.var = 0 → Completes (.vslide f) s (t.vectorWrite f.d.toNat (fun l => if l + k < 64 then x64 (l + k) else 0))) ∧
      (f.var = 1 → Completes (.vslide f) s (t.vectorWrite f.d.toNat (fun l => if k ≤ l + 32 then x64 (l + 32 - k) else 0))) ∧
      (f.var = 2 → Completes (.vslide f) s (t.vectorWrite f.d.toNat (fun l => if l + k < 32 then x a (l + k) else 0))) ∧
      (f.var = 3 → Completes (.vslide f) s (t.vectorWrite f.d.toNat (fun l => if k ≤ l then x a (l - k) else 0)))) ∧
    (Runs (.vshuf f) s t →
      (f.var = 0 → Completes (.vshuf f) s (t.vectorWrite f.d.toNat (fun l => x a (b l % 32)))) ∧
      (f.var = 1 → Completes (.vshuf f) s (t.vectorWrite f.d.toNat (fun l => if b l < 32 then x a (b l) else 0))) ∧
      (f.var = 2 → Completes (.vshuf f) s (t.vectorWrite f.d.toNat (fun l => x a (l ^^^ (b l % 32)))))) ∧
    (Runs (.vbcast f) s t →
      (f.var = 0 → Completes (.vbcast f) s (cast 1 (k % 32))) ∧ (f.var = 1 → Completes (.vbcast f) s (cast 2 (k % 32))) ∧
      (f.var = 2 → Completes (.vbcast f) s (cast 1 first)) ∧ (f.var = 3 → Completes (.vbcast f) s (cast 2 first)))

/-- The operations of R184, with the flags of the floating ones. -/
def Clause.reduceStep (c : Nat) (x y : Word32) : Flagged Word32 :=
  let pick (b : Bool) : Flagged Word32 := { val := if b then x else y, fp := 0, sat := false }
  match c with
  | 0 => { val := BitVec.ofNat 32 (x.toNat + y.toNat), fp := 0, sat := false }
  | 1 => pick (x.toInt ≤ y.toInt)
  | 2 => pick (y.toInt ≤ x.toInt)
  | 3 => pick (x.toNat ≤ y.toNat)
  | 4 => pick (y.toNat ≤ x.toNat)
  | 5 => { val := x &&& y, fp := 0, sat := false }
  | 6 => { val := x ||| y, fp := 0, sat := false }
  | 7 => { val := x ^^^ y, fp := 0, sat := false }
  | 8 => (fmtF32.result ((fmtF32.read x.toNat).add (fmtF32.read y.toNat))).word
  | 9 => (fmtF32.minMax false x.toNat y.toNat).word
  | _ => (fmtF32.minMax true x.toNat y.toNat).word

/-- VREDUCE combines the lanes of E in the fixed tree of R185: node j of level m + 1 combines nodes 2j and 2j + 1 of level m, or is the
one that is present. VSCAN's running value starts at the first lane of E and takes each later one in turn (R186); a lane receives it
after its own element, or, in the exclusive form, before, the first the identity of R184. An element that no operation touches passes
as it is, a NaN too (log entry 68, the model's choice). -/
def Clause.Reductions : Prop :=
  ∀ (f : FormA) (s : State) (t : View),
    let a := t.w.rv f.a.toNat
    let c := f.b.toNat
    let ls := t.effLanes
    (Runs (.vreduce f) s t →
      ∀ T : Nat → Nat → Option (Flagged Word32),
        (∀ j, T 0 j = if t.eff.getLsbD j then some { val := a j, fp := 0, sat := false } else none) →
        (∀ m j, T (m + 1) j = match T m (2 * j), T m (2 * j + 1) with
          | some x, some y =>
            some { val := (Clause.reduceStep c x.val y.val).val, fp := x.fp ||| y.fp ||| (Clause.reduceStep c x.val y.val).fp, sat := false }
          | some x, none => some x
          | none, y => y) →
          ∃ r, T 5 0 = some r ∧
            (f.var = 0 → Completes (.vreduce f) s (t.setW ((t.w.addFlags r.fp false).wvEach f.d.toNat (fun _ => r.val) ls))) ∧
            (f.var = 1 → Completes (.vreduce f) s (t.setW ((t.w.addFlags r.fp false).ws f.d.toNat
              (if c < 3 then r.val.signExtend 64 else r.val.setWidth 64))))) ∧
    (Runs (.vscan f) s t →
      ∀ R : Nat → Flagged Word32,
        R 0 = { val := a (ls.headD 0), fp := 0, sat := false } →
        (∀ k, R (k + 1) = Clause.reduceStep c (R k).val (a (ls.getD (k + 1) 0))) →
          ∃ g, Completes (.vscan f) s (t.setW ((t.w.wvEach f.d.toNat g ls).addFlags (flagsOf ((List.range ls.length).map R)) false)) ∧
            (f.var = 0 → ∀ k, k < ls.length → g (ls.getD k 0) = (R k).val) ∧
            (f.var = 1 → ∀ k, k + 1 < ls.length → g (ls.getD (k + 1) 0) = (R k).val) ∧
            (f.var = 1 → g (ls.headD 0) = [0, 0x7FFFFFFF, 0x80000000, 0xFFFFFFFF, 0, 0xFFFFFFFF, 0, 0, 0x80000000, 0x7F800000,
              0xFF800000].getD c 0))

/-- VOTE, PSET and PMOV (R187 to R189), VMATCH and VLANE (R190, R191); VLANE of the slices follows the warp's own accesses of the bytes it
reads (R204, R241). -/
def Clause.PredicatesAndLanes : Prop :=
  ∀ (f : FormA) (s : State) (t : View),
    let p (x : BitVec 7) : Word32 := if x.getLsbD 3 then ~~~ t.w.rp (x.extractLsb' 0 3).toNat else t.w.rp (x.extractLsb' 0 3).toNat
    let bit (l : Nat) : Bool := (p f.a).getLsbD l
    let putP (y : Word32) : View := t.setW (t.w.wp f.d.toNat t.eff y)
    let all (r : Bool) : Word32 := if r then 0xFFFFFFFF else 0
    let off := (t.w.rs (f.b.toNat % 64)).toNat
    let src (l : Nat) : Nat := (t.w.rv f.a.toNat l).toNat % 32
    let busy : Prop := ∃ l ∈ t.effLanes, t.w.ownStores (.slice (src l) off) 4 = true ∨ t.w.ownReads (.slice (src l) off) 4 = true
    (Runs (.vote f) s t →
      (f.var = 0 → Completes (.vote f) s (putP (all (t.effLanes.any bit)))) ∧
      (f.var = 1 → Completes (.vote f) s (putP (all (t.effLanes.all bit)))) ∧
      (f.var = 2 → Completes (.vote f) s (t.setW (t.w.ws f.d.toNat ((t.eff &&& p f.a).setWidth 64)))) ∧
      (f.var = 3 → Completes (.vote f) s (putP (all (t.effLanes.all bit || t.effLanes.all (fun l => !bit l)))))) ∧
    (Runs (.pset f) s t →
      (f.var = 0 → Completes (.pset f) s (putP (maskOf (fun l => t.w.rv f.a.toNat l != 0)))) ∧
      (f.var = 1 → Completes (.pset f) s (putP ((t.w.rs f.a.toNat).setWidth 32))) ∧
      (f.var = 2 → Completes (.pset f) s (putP 0xFFFFFFFF)) ∧ (f.var = 3 → Completes (.pset f) s (putP 0))) ∧
    (Runs (.pmov f) s t →
      (f.var = 0 → Completes (.pmov f) s (putP (p f.a &&& p f.b))) ∧ (f.var = 1 → Completes (.pmov f) s (putP (p f.a ||| p f.b))) ∧
      (f.var = 2 → Completes (.pmov f) s (putP (p f.a ^^^ p f.b))) ∧
      (f.var = 3 → Completes (.pmov f) s (putP (p f.a &&& ~~~ p f.b)))) ∧
    (Runs (.vmatch f) s t → Completes (.vmatch f) s (t.vectorWrite f.d.toNat (fun l => t.eff &&& maskOf (fun j =>
      t.w.rv f.a.toNat j == t.w.rv f.a.toNat l && (f.var == 0 || t.w.rv (f.a.toNat + 1) j == t.w.rv (f.a.toNat + 1) l))))) ∧
    (Runs (.vlane f) s t →
      (f.var = 0 → Completes (.vlane f) s (t.vectorWrite f.d.toNat (BitVec.ofNat 32))) ∧
      (f.var = 1 → Completes (.vlane f) s
        (t.vectorWrite f.d.toNat (fun l => BitVec.ofNat 32 (t.effLanes.filter (fun j => j < l)).length))) ∧
      (f.var = 2 → 256 ≤ off → Raises (.vlane f) s t (flt 0x07 0x00)) ∧
      (f.var = 2 → off < 256 → off % 4 ≠ 0 → Raises (.vlane f) s t (flt 0x0A 0x00)) ∧
      (f.var = 2 → off < 256 → off % 4 = 0 → busy → Waits (.vlane f) s t) ∧
      (f.var = 2 → off < 256 → off % 4 = 0 → ¬ busy → Completes (.vlane f) s (t.vectorWrite f.d.toNat (fun l =>
        if t.w.liveLanes.getLsbD (src l) then BitVec.ofNat 32 (Cells.readLE t.w.slices (256 * src l + off) 4) else 0))) ∧
      (f.var = 3 → Completes (.vlane f) s (t.vectorWrite f.d.toNat (fun l => BitVec.ofNat 32 (32 * t.w.num + l)))))

/-- The fields of the instructions across lanes and on predicates that must be zero, even or in range (R181 to R191). -/
def Clause.CrossLaneFields : Prop :=
  ∀ w : Word32,
    let op := (w.extractLsb' 24 8).toNat
    let d := w.extractLsb' 17 7
    let a := w.extractLsb' 10 7
    let b := w.extractLsb' 3 7
    let var := (w.extractLsb' 1 2).toNat
    let bs := w.getLsbD 0
    (op = 0x50 → bs = false ∨ (var < 2 ∧ a.getLsbD 0 = true) → Clause.Illegal [] w) ∧
    (op = 0x51 → var = 3 ∨ (var < 2 ∧ bs = true) → Clause.Illegal [] w) ∧
    (op = 0x52 → (var < 2 ∧ bs = false) ∨ (2 ≤ var ∧ (b ≠ 0 ∨ bs = true)) ∨
      (var % 2 = 1 ∧ (d.getLsbD 0 = true ∨ a.getLsbD 0 = true)) → Clause.Illegal [] w) ∧
    (op = 0x53 → 2 ≤ var ∨ bs = true ∨ 11 ≤ b.toNat ∨ (var = 1 ∧ d.getLsbD 6 = true) → Clause.Illegal [] w) ∧
    (op = 0x54 → 2 ≤ var ∨ bs = true ∨ 11 ≤ b.toNat → Clause.Illegal [] w) ∧
    (op = 0x55 → (a.extractLsb' 4 3 ≠ 0 ∨ b ≠ 0 ∨ bs = true) ∨ (var = 2 ∧ d.getLsbD 6 = true) ∨
      (var ≠ 2 ∧ d.extractLsb' 3 4 ≠ 0) → Clause.Illegal [] w) ∧
    (op = 0x56 → (d.extractLsb' 3 4 ≠ 0 ∨ b ≠ 0 ∨ bs = true) ∨ (var = 1 ∧ a.getLsbD 6 = true) ∨ (2 ≤ var ∧ a ≠ 0) →
      Clause.Illegal [] w) ∧
    (op = 0x57 → d.extractLsb' 3 4 ≠ 0 ∨ a.extractLsb' 4 3 ≠ 0 ∨ b.extractLsb' 4 3 ≠ 0 ∨ bs = true → Clause.Illegal [] w) ∧
    (op = 0x5E → 2 ≤ var ∨ b ≠ 0 ∨ bs = true ∨ (var = 1 ∧ a.getLsbD 0 = true) → Clause.Illegal [] w) ∧
    (op = 0x5F → (var = 2 ∧ bs = false) ∨ (var ≠ 2 ∧ (a ≠ 0 ∨ b ≠ 0 ∨ bs = true)) → Clause.Illegal [] w)

/-- The instructions across lanes and those on predicates (R180 to R191). -/
def Obligations.CrossLane : Prop :=
  Clause.CrossLaneMoves ∧ Clause.Reductions ∧ Clause.PredicatesAndLanes ∧ Clause.CrossLaneFields

/-- The frame of the vector instructions of form A: lanes of E of the destination register, or pair, or bits of E of the destination
predicate, and, of the instructions that set them, the sticky flags; no other lane, no other register and no byte of memory changes
(R72, R119, R163). -/
def Clause.VectorFrame : Prop :=
  ∀ (i : Instr) (f : FormA) (s : State) (t : View), Runs i s t →
    let d := f.d.toNat
    let pairs : Bool := (decide (i ∈ [.vadd f, .vsub f, .vmul f, .vmad f]) && f.var == 3) ||
      (decide (i ∈ [.vand f, .vor f, .vxor f]) && f.var == 1) || (decide (i ∈ [.vshl f, .vshr f, .vsra f]) && f.var == 2) ||
      (decide (i = .vbcast f) && (f.var == 1 || f.var == 3))
    (i ∈ [.vadd f, .vsub f, .vmul f, .vmulh f, .vmad f, .vmin f, .vmax f, .vabs f, .vand f, .vor f, .vxor f, .vshl f, .vshr f,
        .vsra f, .vsrar f, .vsel f, .vbfe f, .vpopc f, .fclass f, .vslide f, .vshuf f, .vbcast f, .vmatch f] ∨ (i = .vlane f ∧ f.var ≠ 2) →
      ∃ w', Completes i s (t.setW w') ∧ OnlyVectors t.w w' (if pairs then [d, d + 1] else [d]) t.eff ∧
        SameMemory s ((t.setW w').retire.close)) ∧
    (i ∈ [.vadds f, .vsubs f, .vdot2s f, .fadd f, .fsub f, .fmul f, .ffma f, .fmin f, .fmax f, .frcp f, .frsq f, .fexp2 f, .flog2 f,
        .pkadd f, .pkfma f, .vscan f] ∨ (i = .vreduce f ∧ f.var = 0) →
      ∃ w', Completes i s (t.setW w') ∧ OnlyVectorsFlags t.w w' [d] t.eff ∧ SameMemory s ((t.setW w').retire.close)) ∧
    (i ∈ [.vcmp f, .pset f, .pmov f] ∨ (i = .vote f ∧ f.var ≠ 2) →
      ∃ w', Completes i s (t.setW w') ∧ OnlyPredicate t.w w' (if i = .vcmp f then (f.d.extractLsb' 0 3).toNat else d) t.eff ∧
        SameMemory s ((t.setW w').retire.close)) ∧
    (i = .vote f ∧ f.var = 2 →
      ∃ w', Completes i s (t.setW w') ∧ OnlyScalars t.w w' [d] ∧ SameMemory s ((t.setW w').retire.close)) ∧
    (i = .fcmp f →
      ∃ w' fp, Completes i s (t.setW (w'.addFlags fp false)) ∧ OnlyPredicate t.w w' (f.d.extractLsb' 0 3).toNat t.eff ∧
        SameMemory s ((t.setW (w'.addFlags fp false)).retire.close)) ∧
    (i = .vreduce f ∧ f.var = 1 →
      ∃ w' fp, Completes i s (t.setW (w'.addFlags fp false)) ∧ OnlyScalars t.w w' [d] ∧
        SameMemory s ((t.setW (w'.addFlags fp false)).retire.close))

/-- The frame of VMOV, VLI, FCVT and ICVT: lanes of E of the destination group, and the sticky flags of the conversions. -/
def Clause.MoveConvertFrame : Prop :=
  (∀ (i : Instr) (f : FormW) (s : State) (t : View), Runs i s t →
    let ds := (List.range (grpW f.wd)).map (fun k => f.d.toNat + k)
    (i = .vmov f → ∃ w', Completes i s (t.setW w') ∧ OnlyVectors t.w w' ds t.eff ∧ SameMemory s ((t.setW w').retire.close)) ∧
    (i ∈ [.fcvt f, .icvt f] →
      ∃ w', Completes i s (t.setW w') ∧ OnlyVectorsFlags t.w w' ds t.eff ∧ SameMemory s ((t.setW w').retire.close))) ∧
  (∀ (f : FormB) (s : State) (t : View), Runs (.vli f) s t →
    ∃ w', Completes (.vli f) s (t.setW w') ∧ OnlyVectors t.w w' [f.d.toNat] t.eff ∧ SameMemory s ((t.setW w').retire.close))

/-- What the vector instructions leave unchanged (R72, R119, R163). -/
def Obligations.VectorFrames : Prop := Clause.VectorFrame ∧ Clause.MoveConvertFrame

/-! ### The transform pipe -/

/-- A transform instruction joins its quadrant's queue, and the warp goes on; it waits while four stand there (R192, R193). XCVT first
reads its record, which is 32-byte aligned and legal (R60, R197). -/
def Clause.TransformIssue : Prop :=
  ∀ (s : State) (t t1 : View),
    let q := t.w.num % 4
    let joined (u : View) (i : Instr) (bs : List Byte) : View :=
      { u with
        blk := { u.blk with xqueues := u.blk.xqueues.modify q (fun l => l ++ [t.w.num]) }
        w := { u.w with
          seq := t.w.seq + 1
          ops := t.w.ops ++ [{ seq := t.w.seq, pc := t.pc, instr := i, since := s.clock, body := .xqueued t.eff bs }] } }
    let room := (t.blk.xqueues.getD q []).length < 4
    (∀ i, ((∃ f, i = .xpack f) ∨ (∃ f, i = .xunpack f) ∨ (∃ f, i = .xtopk f) ∨ (∃ f, i = .xcrc f) ∨ (∃ f, i = .xsort f)) →
      Runs i s t → (room → Completes i s (joined t i [])) ∧ (¬ room → Waits i s t)) ∧
    (∀ f bs, Runs (.xcvt f) s t →
      let va := t.w.rs f.obj.toNat
      (¬ room → Waits (.xcvt f) s t) ∧
      (room → va.toNat % 32 ≠ 0 → Raises (.xcvt f) s t ((flt 0x0A 0x00).at va)) ∧
      (room → va.toNat % 32 = 0 → ∀ e, t.readVa va 32 = .fault e → Stops (.xcvt f) s t e) ∧
      (room → va.toNat % 32 = 0 → t.readVa va 32 = .wait → Waits (.xcvt f) s t) ∧
      (room → va.toNat % 32 = 0 → t.readVa va 32 = .ok t1 bs →
        (Param.legal bs (xcvtFormats f.typ) = false → Raises (.xcvt f) s t (flt 0x02 0x05)) ∧
        (Param.legal bs (xcvtFormats f.typ) = true → xcvtCount f (Param.ofBytes bs).fmt = false → Raises (.xcvt f) s t (flt 0x02 0x04)) ∧
        (Param.legal bs (xcvtFormats f.typ) = true → xcvtCount f (Param.ofBytes bs).fmt = true →
          Completes (.xcvt f) s (joined t1 (.xcvt f) bs))))

/-- The pipe accepts the head of the next queue in round-robin order and reads its sources then; it completes by writing its results
and flags, oldest of the quadrant first (R192, R193). So an instruction of an idle pipe ends with its results in its warp's registers,
and nothing else of the warp changed but its sticky flags. -/
def Clause.TransformPipe : Prop :=
  (∀ (s : State) (core q : Nat) (b : Block) (w : Warp) (o : Op) (eff : LaneMask) (bs : List Byte),
    s.block core = some b → b.nextQuad (s.pipeLast core) = some q → (b.xqueues.getD q []).head? = some w.num → b.warp w.num = some w →
    w.ops = [o] → o.body = .xqueued eff bs →
      let r := xformResult o.instr w eff bs
      let b1 := b.setWarp { w with ops := [{ o with body := .xaccepted r.writes r.fp (if r.sat then 1 else 0) }] }
      exec (.xformAccept core) s = .next { s.setBlock core { b1 with
        xqueues := b.xqueues.modify q List.tail, xpipe := b.xpipe.modify q (fun l => l ++ [w.num]) } with
        pipes := (core, q) :: s.pipes.filter (fun x => x.1 != core) }) ∧
  (∀ (s : State) (core : Nat) (b : Block) (w : Warp) (o : Op) (writes : List RegWrite) (fp sat : Word32),
    s.block core = some b → b.warp w.num = some w → w.ops = [o] → o.body = .xaccepted writes fp sat →
    (b.xpipe.getD (w.num % 4) []).head? = some w.num →
      exec (.xformComplete core w.num) s = .next ((s.setBlock core { b.setWarp { w.addFlags fp (sat != 0) with ops := [] } with
        xpipe := b.xpipe.modify (w.num % 4) List.tail }).writeRegs core w.num writes)) ∧
  (∀ (s : State) (core : Nat) (b : Block) (w : Warp) (o : Op) (eff : LaneMask) (bs : List Byte),
    s.block core = some b → b.nextQuad (s.pipeLast core) = some (w.num % 4) → (b.xqueues.getD (w.num % 4) []).head? = some w.num →
    b.warp w.num = some w → w.ops = [o] → o.body = .xqueued eff bs → b.xpipe.getD (w.num % 4) [0] = [] → s.bad = [] →
      let r := xformResult o.instr w eff bs
      ∃ s1 s2 b2, exec (.xformAccept core) s = .next s1 ∧ exec (.xformComplete core w.num) s1 = .next s2 ∧ s2.block core = some b2 ∧
        b2.warp w.num = some (Warp.applyWrites { w.addFlags r.fp r.sat with ops := [] } r.writes) ∧ SameMemory s s2)

/-- What XPACK, XUNPACK and XCRC write (R199, R200, R202): fields of the elements packed, elements extended to words, and the CRC-32C of
v(d) over one, two, four or eight bytes of v(a). -/
def Clause.TransformFields : Prop :=
  (∀ (f : FormW) (w : Warp) (eff : LaneMask) (bs : List Byte),
    let ew := [16, 16, 8, 4].getD f.sel.toNat 4
    let sh := [0, 16, 0, 0].getD f.sel.toNat 0
    (xformResult (.xpack f) w eff bs).writes = (lanes eff).flatMap (fun l => (List.range (grpW f.wd)).map (fun r =>
      RegWrite.v (f.d.toNat + r) l (groupWord ew r ((List.range (grpW f.wa)).map (fun j =>
        (w.rv (f.a.toNat + j) l).toNat / 2 ^ sh % 2 ^ ew)))))) ∧
  (∀ (f : FormW) (w : Warp) (eff : LaneMask) (bs : List Byte), f.sel.toNat < 6 →
    let ew := [16, 16, 8, 8, 4, 4].getD f.sel.toNat 4
    let n := 32 / ew
    let field (l j : Nat) : BitVec ew := BitVec.ofNat ew ((w.rv (f.a.toNat + j / n) l).toNat / 2 ^ (ew * (j % n)))
    (xformResult (.xunpack f) w eff bs).writes = (lanes eff).flatMap (fun l => (List.range (grpW f.wd)).map (fun j =>
      RegWrite.v (f.d.toNat + j) l (if f.sel.getLsbD 0 then (field l j).signExtend 32 else (field l j).setWidth 32)))) ∧
  (∀ (f : FormA) (w : Warp) (eff : LaneMask) (bs : List Byte),
    let bytes (l : Nat) : List Byte := leBytes (2 ^ f.var.toNat) (w.rv64 f.a.toNat l).toNat
    (xformResult (.xcrc f) w eff bs).writes = (lanes eff).map (fun l =>
      RegWrite.v f.d.toNat l ((bytes l).foldl crcByte (w.rv f.d.toNat l)))) ∧
  (∀ c : Word32, crcBit c = if c.toNat % 2 = 1 then BitVec.ofNat 32 (c.toNat / 2) ^^^ 0x82F63B78 else BitVec.ofNat 32 (c.toNat / 2)) ∧
  (∀ i ∈ [Instr.xpack, .xunpack], ∀ f w eff bs, (xformResult (i f) w eff bs).fp = 0 ∧ (xformResult (i f) w eff bs).sat = false)

/-- The two q4 forms of XCVT (R55, R197, R198): from q4, register j of a lane holds four codes and their scale byte, which are decoded
exactly and narrowed as elements 4j to 4j + 3; to q4, destination register j takes the block of elements 4j to 4j + 3. A q4 value is
V(t, c) times 2 to the power E − 40, its V given in eighths by the table of R55. -/
def Clause.TransformQ4 : Prop :=
  (∀ (f : FormE) (w : Warp) (eff : LaneMask) (bs : List Byte), f.typ = 5 → (Param.ofBytes bs).fmt ≠ 5 →
    let p := Param.ofBytes bs
    let n := 4 * grpW (f.sub.extractLsb' 0 2)
    let src (l k : Nat) : Nat := (w.rv (f.a.toNat + k / 4) l).toNat
    let elem (l k : Nat) : Flagged Nat := p.narrow (decodeQ4 (src l k / 2 ^ 16 % 256) (src l k / 2 ^ (4 * (k % 4)) % 16)) (32 * k + l)
    let r := xformResult (.xcvt f) w eff bs
    r.writes = (lanes eff).flatMap (fun l => (List.range (grpW (f.sub.extractLsb' 2 2))).map (fun j =>
      RegWrite.v (f.d.toNat + j) l (groupWord (fmtBits p.fmt) j ((List.range n).map (fun k => (elem l k).val))))) ∧
    r.fp = flagsOf ((lanes eff).flatMap (fun l => (List.range n).map (elem l)))) ∧
  (∀ (f : FormE) (w : Warp) (eff : LaneMask) (bs : List Byte), f.typ.toNat < 3 → (Param.ofBytes bs).fmt = 5 →
    let p := Param.ofBytes bs
    let sw := fmtBits f.typ
    let rd := grpW (f.sub.extractLsb' 2 2)
    let elem (l k : Nat) : Machine.Num := readNum f.typ ((w.rv (f.a.toNat + k / (32 / sw)) l).toNat / 2 ^ (sw * (k % (32 / sw))) % 2 ^ sw)
    let block (l j : Nat) : Flagged Nat :=
      p.encodeQ4 ((List.range 4).map (fun m => elem l (4 * j + m))) ((List.range 4).map (fun m => 32 * (4 * j + m) + l))
    let r := xformResult (.xcvt f) w eff bs
    grpW (f.sub.extractLsb' 0 2) * (32 / sw) = 4 * rd →
      r.writes = (lanes eff).flatMap (fun l => (List.range rd).map (fun j =>
        RegWrite.v (f.d.toNat + j) l (BitVec.ofNat 32 (block l j).val))) ∧
      r.fp = flagsOf ((lanes eff).flatMap (fun l => (List.range rd).map (block l)))) ∧
  (∀ scale c, decodeQ4 scale c = .fin (decide (q4Eighths (scale / 64 % 4) c < 0)) (q4Eighths (scale / 64 % 4) c).natAbs ((scale % 64 : Nat) - 43)) ∧
  (List.range 8).map (q4Eighths 0) = [0, 8, 16, 24, 32, 40, 48, 56] ∧
  (List.range 8).map (fun c => q4Eighths 0 (8 + c)) = [-64, -56, -48, -40, -32, -24, -16, -8] ∧
  (List.range 8).map (q4Eighths 1) = [0, 4, 8, 12, 16, 24, 32, 48] ∧
  (List.range 8).map (q4Eighths 2) = [0, 1, 2, 4, 8, 16, 32, 64] ∧
  (List.range 8).map (q4Eighths 3) = [0, 8, 16, 24, 32, 48, 64, 96] ∧
  (∀ t c, t ∈ [1, 2, 3] → c < 8 → q4Eighths t (8 + c) = -q4Eighths t c)

/-- The base word `w` with its extension word `x` is an illegal encoding. -/
def Clause.IllegalExt (w x : Word32) : Prop :=
  ∀ rest : List Word32, ∃ det : BitVec 16, decodeFor 128 (w :: x :: rest) = some { instr := .illegalEncoding det 0, len := 2, base := 0 }

/-- The field values of the transform instructions that are illegal (R177, R196, R199 to R203): selectors and types out of range,
fields that must be zero, counts of registers that do not fit, and a value register of XSORT that is its key destination. -/
def Clause.TransformFieldValues : Prop :=
  ∀ w x : Word32,
    let op := (w.extractLsb' 24 8).toNat
    let sel := (w.extractLsb' 0 6).toNat
    let wd := 2 ^ (w.extractLsb' 8 2).toNat
    let wa := 2 ^ (w.extractLsb' 6 2).toNat
    let typ := (x.extractLsb' 17 4).toNat
    (op = 0x58 → x.extractLsb' 21 11 ≠ 0 ∨ x.extractLsb' 0 13 ≠ 0 ∨ typ ∉ [0, 1, 2, 5] → Clause.IllegalExt w x) ∧
    (op = 0x59 → 4 ≤ sel ∨ wa * [16, 16, 8, 4].getD sel 0 ≠ 32 * wd → Clause.Illegal [] w) ∧
    (op = 0x5A → 6 ≤ sel ∨ wd * [16, 16, 8, 8, 4, 4].getD sel 0 ≠ 32 * wa → Clause.Illegal [] w) ∧
    (op = 0x5B → x.extractLsb' 21 11 ≠ 0 ∨ x.extractLsb' 0 13 ≠ 0 ∨ 4 ≤ (w.extractLsb' 0 4).toNat ∨ typ ∉ [0, 2] →
      Clause.IllegalExt w x) ∧
    (op = 0x5C → w.extractLsb' 3 7 ≠ 0 ∨ w.getLsbD 0 = true → Clause.Illegal [] w) ∧
    (op = 0x5D → x.extractLsb' 21 11 ≠ 0 ∨ w.extractLsb' 4 6 ≠ 0 ∨ 2 ≤ (w.extractLsb' 0 4).toNat ∨ typ ∉ [0, 10, 11] ∨
      x.extractLsb' 8 5 ≠ 0 ∨ (x.getLsbD 7 = true ∧ x.extractLsb' 0 7 = w.extractLsb' 17 7) ∨
      (x.getLsbD 7 = false ∧ x.extractLsb' 0 7 ≠ 0) → Clause.IllegalExt w x)

/-- What XCVT, XTOPK and XSORT write (R197, R201, R203): XCVT narrows each source element under its record; XTOPK selects the k elements
of greatest rank among 64, ties to the lower index, with their mask in s(m), and gives lane L the L-th of them; XSORT puts the lanes of
E into the order of their keys, equal ones as they stood, with a companion register that moves along. -/
def Clause.TransformSelections : Prop :=
  (∀ (f : FormE) (w : Warp) (eff : LaneMask) (bs : List Byte), f.typ ≠ 5 → (Param.ofBytes bs).fmt ≠ 5 →
    let p := Param.ofBytes bs
    let sw := fmtBits f.typ
    let n := grpW (f.sub.extractLsb' 0 2) * (32 / sw)
    let elem (l k : Nat) : Flagged Nat := p.narrow
      (readNum f.typ ((w.rv (f.a.toNat + k / (32 / sw)) l).toNat / 2 ^ (sw * (k % (32 / sw))) % 2 ^ sw)) (32 * k + l)
    let r := xformResult (.xcvt f) w eff bs
    r.writes = (lanes eff).flatMap (fun l => (List.range (grpW (f.sub.extractLsb' 2 2))).map (fun j =>
      RegWrite.v (f.d.toNat + j) l (groupWord (fmtBits p.fmt) j ((List.range n).map (fun k => (elem l k).val))))) ∧
    r.fp = flagsOf ((lanes eff).flatMap (fun l => (List.range n).map (elem l)))) ∧
  (∀ (f : FormE) (w : Warp) (eff : LaneMask) (bs : List Byte), f.sub.toNat < 4 →
    let F := if f.typ = 0 then fmtF32 else fmtBF16
    let elem (j : Nat) : Nat :=
      if eff.getLsbD (j % 32) = false then 0
      else if f.typ = 0 then (w.rv (f.a.toNat + j / 32) (j % 32)).toNat
      else (w.rv f.a.toNat (j % 32)).toNat / 2 ^ (16 * (j / 32)) % 2 ^ 16
    let rank (j : Nat) : Nat := topkRank F (elem j)
    ∃ sel : List Nat, sel.length = 4 * 2 ^ f.sub.toNat ∧ sel.Pairwise (· < ·) ∧ (∀ i ∈ sel, i < 64) ∧
      (∀ i ∈ sel, ∀ j, j < 64 → j ∉ sel → rank j < rank i ∨ (rank j = rank i ∧ i < j)) ∧
      (xformResult (.xtopk f) w eff bs).writes =
        (if f.obj = 0 then [] else [.s f.obj.toNat (BitVec.ofNat 64 ((sel.map (fun j => 2 ^ j)).sum))]) ++
          (lanes eff).map (fun l => .v f.d.toNat l (BitVec.ofNat 32 ((sel[l]?.map elem).getD 0)))) ∧
  (∀ (f : FormE) (w : Warp) (eff : LaneMask) (bs : List Byte),
    let key (l : Nat) : Int := sortKey f.typ (w.rv f.a.toNat l)
    let vv := (f.x.extractLsb' 0 7).toNat
    ∃ sorted : List Nat, sorted.Perm (lanes eff) ∧
      sorted.Pairwise (fun i j => (if f.sub = 0 then key i < key j else key j < key i) ∨ (key i = key j ∧ i < j)) ∧
      (xformResult (.xsort f) w eff bs).writes = ((lanes eff).zip sorted).flatMap (fun x =>
        RegWrite.v f.d.toNat x.1 (w.rv f.a.toNat x.2) :: (if f.x.getLsbD 7 then [.v vv x.1 (w.rv vv x.2)] else [])))

/-- The transform instructions XCVT, XPACK, XUNPACK, XTOPK, XCRC and XSORT: issue, acceptance and completion (R192, R193, R197). -/
def Obligations.Transforms : Prop := Clause.TransformIssue ∧ Clause.TransformPipe

/-- What the transform instructions write, the q4 forms of XCVT among them (R55, R197 to R203), and the field values that are illegal
(R177, R196). -/
def Obligations.TransformResults : Prop :=
  Clause.TransformFields ∧ Clause.TransformSelections ∧ Clause.TransformQ4 ∧ Clause.TransformFieldValues

/-! ### Control -/

/-- The branches (R142 to R149): without a taken lane they fall through; LOOP decrements s(d) first and branches while it is not
zero; a call pushes its return entry; YIELD makes the next ready split run (R30, R157). -/
def Obligations.ControlTransfers : Prop :=
  (∀ (f : FormG) (s : State) (t : View),
    let p := t.w.rp f.pred.toNat
    let m := t.eff &&& (if f.neg = 1 then ~~~ p else p)
    let off : Int := match f.imm with
      | none => f.off.toInt
      | some x => (x ++ f.off).toInt
    let a := t.baseAddr false + BitVec.ofInt 64 (4 * off)
    (Runs (.bra f) s t → (m = 0 → Completes (.bra f) s t) ∧ (m ≠ 0 → Transfers (.bra f) s t t [(a, m)] true)) ∧
    (Runs (.call f) s t → (m = 0 → Completes (.call f) s t) ∧ (m ≠ 0 → Calls (.call f) s t t [(a, m)]))) ∧
  (∀ (f : FormC) (s : State) (t : View),
    let p := t.w.rp (f.fn.extractLsb' 0 3).toNat
    let m := t.eff &&& (if f.fn.getLsbD 3 then ~~~ p else p)
    let x := t.w.rs f.d.toNat - 1
    let t1 := t.setW (t.w.ws f.d.toNat x)
    (Runs (.br f) s t → (m = 0 → Completes (.br f) s t) ∧ (m ≠ 0 → Transfers (.br f) s t t [(t.w.rs f.a.toNat, m)] true)) ∧
    (Runs (.loop f) s t → (x = 0 → Completes (.loop f) s t1) ∧
      (x ≠ 0 → Transfers (.loop f) s t t1 [(t.target (immInt f.w18 f.imm), t.eff)] true))) ∧
  (∀ (f : FormA) (s : State) (t : View),
    let link (l : Nat) : Addr := t.w.rs (f.b.toNat % 64) +
      4 * (if f.var = 1 then (t.w.rv f.a.toNat l).signExtend 64 else (t.w.rv f.a.toNat l).setWidth 64)
    let groups := groupTargets (t.effLanes.map (fun l => (l, link l)))
    (Runs (.brx f) s t → Transfers (.brx f) s t t groups true) ∧ (Runs (.callx f) s t → Calls (.callx f) s t t groups)) ∧
  (∀ (f : FormH) (s : State) (t : View), Runs (.yield f) s t →
    let ring := switchRing (setRunPc t.w.ring t.nextHeader)
    (t.w.ring.length ≤ 4 → Completes (.yield f) s (t.fallThrough.setW { t.fallThrough.w with ring := ring })) ∧
    (∀ t1, t.fallThrough.putRing ring = .ok t1 → Completes (.yield f) s t1) ∧
    (∀ e, t.fallThrough.putRing ring = .error e → Stops (.yield f) s t e))

/-- The lanes of a warp (R27 to R31): replacing the running split by groups that share its lanes out, switching, and merging at a
header keep the set of live lanes; grouping lanes by their targets keeps them too. -/
def Obligations.RingKeepsLanes : Prop :=
  let all (r : List Split) : LaneMask := r.foldl (fun m sp => m ||| sp.mask) 0
  (∀ (ring groups : List Split) (sp : Split), ring.find? (fun x => x.st == .running) = some sp → all groups = sp.mask →
    all (replaceRunning ring groups) = all ring) ∧
  (∀ ring : List Split, all (switchRing ring) = all ring) ∧
  (∀ ring : List Split, all (arriveRing ring) = all ring) ∧
  (∀ (ls : List (Nat × Addr)) (l : Nat), l < 32 →
    (((groupTargets ls).foldl (fun m g => m ||| g.2) (0 : LaneMask)).getLsbD l = true ↔ ∃ a, (l, a) ∈ ls))

/-- The return stack (R121): pushing beyond 65,535 entries raises class 0x07, detail 0x05; below a depth of 16 a push and a pop
leave the stack as it was; a seventeenth entry spills the oldest one to its place in the slices, which waits for the warp's own
accesses of that place (R241). -/
def Clause.ReturnStack : Prop :=
  ∀ (t : View) (e : RetEntry),
    let j := t.w.depth - 16
    let held : Prop := t.w.ownStores (spillSlice j) 16 = true ∨ t.w.ownReads (spillSlice j) 16 = true
    (t.w.depth = 65535 → t.pushRet e = .error (flt 0x07 0x05)) ∧
    (t.w.depth < 16 → t.pushRet e = .ok (t.setW { t.w with depth := t.w.depth + 1, hw := e :: t.w.hw }) ∧
      (t.setW { t.w with depth := t.w.depth + 1, hw := e :: t.w.hw }).popRet = .ok t) ∧
    (16 ≤ t.w.depth → t.w.depth < 144 → held → t.pushRet e = .error busy) ∧
    (16 ≤ t.w.depth → t.w.depth < 144 → ¬ held → ∃ t1 : View, t.pushRet e = .ok t1 ∧ t1.w.depth = t.w.depth + 1 ∧
      t1.w.hw = e :: t.w.hw.take 15 ∧ t1.dev = { t.dev with bad := t1.dev.bad } ∧ t1.blk = t.blk ∧
      (Cells.wf t.w.slices = true → Cells.getMany t1.w.slices (256 * (j / 4) + 192 + 16 * (j % 4)) 16 =
        ((t.w.hw.getD 15 { addr := 0, mask := 0 }) : RetEntry).bytes))

/-- RET, RETV, RECONV and BSYNC hold their lanes and settle (R150, R151, R154, R155): a return with an empty return stack raises
class 0x0B; one that would lower the depth below that of the region's entry enters a region first (R33, R121), and so does each at that
entry's depth (log entry 71, the model's choice); BSYNC waits for the warp's earlier accesses. -/
def Clause.HoldsAndReturns : Prop :=
  (∀ (i : Instr) (why : HoldKind) (s : State) (t t1 : View),
    (∃ f, i = .ret f ∧ why = .ret) ∨ (∃ f, i = .retv f ∧ why = .retv f.a (f.b.extractLsb' 0 6) (f.var == 1)) → Runs i s t →
      let enters : Prop := t.w.depth ≤ t.w.ckpt.depth ∨ ∃ u, t.hold why = .ok u ∧ u.w.depth < t.w.ckpt.depth
      (t.w.depth = 0 → Raises i s t (flt 0x0B 0x00)) ∧
      (¬ enters → t.hold why = .ok t1 → t1.dev.bad = [] → Completes i s t1) ∧
      (¬ enters → ∀ e, t.hold why = .error e → Stops i s t e) ∧
      (t.w.depth ≠ 0 → enters → t.mayPass = false → Waits i s t) ∧
      (t.w.depth ≠ 0 → enters → t.mayPass = true → ∀ t0, t.enter t.cl.header = .ok t0 →
        (t0.w.stop = .stopped → exec i s = .next t0.leave.close) ∧
        (t0.w.stop ≠ .stopped → t0.hold why = .ok t1 → t1.dev.bad = [] → Completes i s t1) ∧
        (t0.w.stop ≠ .stopped → ∀ e, t0.hold why = .error e → e.cls ≠ 0 → exec i s = .next (t0.raise e)))) ∧
  (∀ (f : FormG) (s : State) (t t1 : View), Runs (.reconv f) s t →
    (∀ e, t.checkTarget (t.target (immInt f.off f.imm)) = .error e → Stops (.reconv f) s t e) ∧
    (t.checkTarget (t.target (immInt f.off f.imm)) = .ok () →
      (t.hold (.reconv (t.target (immInt f.off f.imm))) = .ok t1 → t1.dev.bad = [] → Completes (.reconv f) s t1) ∧
      (∀ e, t.hold (.reconv (t.target (immInt f.off f.imm))) = .error e → Stops (.reconv f) s t e))) ∧
  (∀ (f : FormH) (s : State) (t t1 : View), Runs (.bsync f) s t →
    (t.w.quiet = false → Waits (.bsync f) s t) ∧
    (t.w.quiet = true → t.hold (.bsync t.nextHeader) = .ok t1 → t1.bsync.dev.bad = [] → Completes (.bsync f) s t1.bsync) ∧
    (t.w.quiet = true → ∀ e, t.hold (.bsync t.nextHeader) = .error e → Stops (.bsync f) s t e))

/-- A whole warp that returns by RET goes on at the top entry's address, by RETV where its lanes name one target there, by RECONV at its
target, and a block's only warp that arrives at BSYNC after its clause (R151, R153 to R155). -/
def Clause.WholeWarpReturns : Prop :=
  ∀ (s : State) (t : View) (sp : Split), t.w.ring = [sp] → sp.st = .running → t.eff = sp.mask →
    let goes (a : Addr) : List Split := [{ pc := a, mask := sp.mask, st := .running }]
    (∀ (i : Instr) (a : Addr) (e : RetEntry) (r : List RetEntry),
      (∃ f, i = .ret f ∧ a = e.addr) ∨
        (∃ f, i = .retv f ∧ ∀ l ∈ lanes sp.mask, t.w.link f.a (f.b.extractLsb' 0 6) (f.var == 1) l = a) →
      Runs i s t → t.w.hw = e :: r → t.w.ckpt.depth < t.w.depth → t.w.depth ≤ 16 → sp.mask &&& e.mask = sp.mask →
      t.checkTarget a = .ok () → (t.w.depth = 1 ∨ ((r.headD { addr := 0, mask := 0 }).mask &&& sp.mask ≠ 0)) →
        Completes i s (t.setW { t.w with ring := goes a, depth := t.w.depth - 1, hw := r, clause := none })) ∧
    (∀ f, Runs (.reconv f) s t → t.w.depth = 0 → t.checkTarget (t.target (immInt f.off f.imm)) = .ok () →
      Completes (.reconv f) s (t.setW { t.w with ring := goes (t.target (immInt f.off f.imm)), clause := none })) ∧
    (∀ f, Runs (.bsync f) s t → t.w.depth = 0 → t.w.quiet = true → t.w.life = .live → t.blk.warps.length = 1 →
      ∃ t' : View, Completes (.bsync f) s t' ∧ t'.w = { t.w with ring := goes t.nextHeader, clause := none } ∧
        SameMemory s t'.retire.close)

/-- The return stack and the splits held at RET, RETV, RECONV and BSYNC (R149 to R155). -/
def Obligations.SplitsHeld : Prop := Clause.ReturnStack ∧ Clause.HoldsAndReturns ∧ Clause.WholeWarpReturns

/-- REGION makes its descriptor current and is a region entry, whose checkpoint resumes at the next header (R33 to R35, R158); FENCE
is a region entry too, pending while an earlier event that it covers is not performed, and complete at once where none is (R251, R252;
that it is complete at once is the model's choice: log entry 15). Both wait while no entry may be made, a pending FENCE's speculative
reads among the reasons, which is the model's choice (log entry 21). SLEEP keeps the warp from issuing
for 64 n cycles (R160); TRAP calls the context's handler with a frame in each lane's slice, or ends the warp with class 0x0F where
there is none (R159, R438). -/
def Clause.RegionSleepTrap : Prop :=
  (∀ (f : FormH) (s : State) (t : View), Runs (.region f) s t →
    let d := immNat f.fn f.imm
    let read := t.readVa (t.blk.launch.descBase + BitVec.ofNat 64 (64 * d)) 64
    (t.blk.launch.dcnt ≤ d → Raises (.region f) s t (flt 0x02 0x0D)) ∧
    (d < t.blk.launch.dcnt →
      (∀ e, read = .fault e → Stops (.region f) s t e) ∧
      (read = .wait → Waits (.region f) s t) ∧
      (∀ t1 bs, read = .ok t1 bs →
        (bytesNat bs 28 4 < 2 ∧ bytesNat bs 56 8 = 0 → t.mayPass = false → Waits (.region f) s t) ∧
        (¬ (bytesNat bs 28 4 < 2 ∧ bytesNat bs 56 8 = 0) → Raises (.region f) s t (flt 0x02 0x0D)) ∧
        (bytesNat bs 28 4 < 2 ∧ bytesNat bs 56 8 = 0 → t.passesFreely →
          ∃ t' : View, Completes (.region f) s t' ∧ t'.w.desc = LiveDesc.ofBytes d bs ∧ t'.w.ckpt.desc = t'.w.desc ∧
            t'.w.ckpt.resume = t.nextHeader ∧ t'.w.ckpt.seq = t.w.seq ∧ t'.w.ckpt.ring = setRunPc t.w.ring t.nextHeader ∧
            t'.w.ckpt.depth = t.w.depth ∧ t'.w.ckpt.hw = t.w.hw ∧ t'.w.tent = [] ∧ t'.w.pushes = [] ∧
            t'.w.v = t.w.v ∧ t'.w.s = t.w.s ∧ t'.w.p = t.w.p)))) ∧
  (∀ (f : FormH) (s : State) (t : View), Runs (.fence f) s t →
    let ord := f.fn.extractLsb' 0 3
    let sco := f.fn.extractLsb' 3 3
    let kept := t.w.fence.map (fun x => { x with rollbacks := 0 })
    (t.mayPass = false → Waits (.fence f) s t) ∧
    (t.passesFreely →
      ∃ t' : View, Completes (.fence f) s t' ∧ t'.w.ckpt.resume = t.nextHeader ∧ t'.w.v = t.w.v ∧ t'.w.s = t.w.s ∧ t'.w.p = t.w.p ∧
        (sco.toNat < 2 ∨ ord = 0 → t'.w.fence = kept ∧ t'.w.buf = t.w.buf) ∧
        (2 ≤ sco.toNat →
          (ord ∈ [2, 3, 4] ∧ (t.w.buf ≠ [] ∨ t.w.loads ≠ [] ∨ ∃ o ∈ t.w.ops, o.lanes ≠ [])) ∨
            (ord ∈ [1, 3, 4] ∧ ((∃ ld ∈ t.w.loads, ld.seq < t.w.seq) ∨ ∃ o ∈ t.w.ops, o.lanes ≠ [] ∧ o.seq < t.w.seq)) →
          t'.w.buf = t.w.buf ++ [.fence] ∧
            t'.w.fence = some { seq := t.w.seq, resume := t.nextHeader, order := ord, scope := sco, watch := [], hit := false, rollbacks := 0,
                                prior := (t.w.fence.map (fun x => x.prior ++ [(x.seq, x.order)])).getD [] }) ∧
        (t.w.loads = [] → t.w.buf = [] → t.w.ops = [] → t.w.pushes = [] → s.netPending t.core t.w.num t.w.seq = false →
          t'.w.fence = kept ∧ t'.w.buf = []))) ∧
  (∀ (f : FormH) (s : State) (t : View), Runs (.sleep f) s t →
    let n := immNat f.fn f.imm
    (n = 0 ∨ t.w.stop = .asked → Completes (.sleep f) s t) ∧
    (n ≠ 0 → t.w.stop ≠ .asked → Completes (.sleep f) s (t.setW { t.w with outst := some (.sleep s.clock (64 * n)) }))) ∧
  (∀ (f : FormH) (s : State) (t : View), Runs (.trap f) s t →
    let h := (s.ctxDesc t.blk.launch.ctx [500]).trap
    let frame := leBytes 8 (0x0F + 256 * f.fn.toNat) ++ leBytes 8 ((t.baseAddr false).toNat % 2 ^ 55)
    let busy : Prop := ∃ l ∈ t.effLanes, t.w.ownStores (.slice l 176) 16 = true ∨ t.w.ownReads (.slice l 176) 16 = true
    (h = 0 → Raises (.trap f) s t (flt 0x0F (f.fn.setWidth 16))) ∧
    (h ≠ 0 → (∀ e, t.checkTarget h = .error e → Stops (.trap f) s t e) ∧
      (t.checkTarget h = .ok () → busy → Waits (.trap f) s t) ∧
      (t.checkTarget h = .ok () → ¬ busy → Calls (.trap f) s t (t.setW { t.w with
        slices := t.effLanes.foldl (fun sl l => Cells.setMany sl (256 * l + 176) frame) t.w.slices }) [(h, t.eff)])))

/-- A word that is no instruction, or an encoding that the spec calls illegal, raises class 0x01 or 0x02 at its word, whatever the
lanes (R98, R100, R101, R102); in a clause of class 7 it waits for the instruction before it (R82). -/
def Clause.DecodeFaults : Prop :=
  ∀ (s : State) (t : View) (d : BitVec 16) (o : Nat), s.view = some t → t.cl.todo ≠ [] →
    (t.single = true → exec (.illegalInstruction d o) s = .next (t.stalled .result).close ∧
      exec (.illegalEncoding d o) s = .next (t.stalled .result).close) ∧
    (t.single = false → t.w.waiting = none →
      exec (.illegalInstruction d o) s = .next (t.raise { flt 0x01 d with addr := some (t.pc + BitVec.ofNat 64 (4 * o)) }) ∧
      exec (.illegalEncoding d o) s = .next (t.raise { flt 0x02 d with addr := some (t.pc + BitVec.ofNat 64 (4 * o)) }))

/-- Taking a fault (R38, R430, R433, R435, R436): a replayable one rolls the warp back to its region's entry, posts its fault record
and makes it wait for a retry; what issued after that entry is under way no more, but for lanes of atomics that deliver nothing. Any
other fault terminates the warp, which is without splits, loads, tentative records and handles then. A status entry holds the class, the warp, the address over 4, the detail and the lanes. -/
def Clause.ExceptionEntry : Prop :=
  (∀ (t : View) (f : FaultInfo), f.addr.isSome = true → f.replayable = true →
    t.raise f = (t.replay f).close ∧ (t.replay f).w.faultWait = true ∧ (t.replay f).w.ring = t.w.ckpt.ring ∧
      (t.replay f).w.depth = t.w.ckpt.depth ∧ (t.replay f).w.hw = t.w.ckpt.hw ∧ (t.replay f).w.desc = t.w.ckpt.desc ∧
      (t.replay f).w.clause = none ∧ (t.replay f).w.tent = [] ∧ (t.replay f).w.waiting = none ∧
      (t.replay f).w.loads = t.w.loads.filter (fun ld => ld.seq < t.w.ckpt.seq) ∧
      (∀ o ∈ (t.replay f).w.ops, o.seq < t.w.ckpt.seq ∨ ∃ size ps xs, o.body = .atomic size 0 ps xs) ∧
      (t.replay f).w.v = t.w.v ∧ (t.replay f).w.s = t.w.s ∧ (t.replay f).w.p = t.w.p ∧
      (t.replay f).w.fpflags = t.w.fpflags ∧ (t.replay f).w.satflag = t.w.satflag ∧
      (t.replay f).dev = t.rollback.dev.postFault t.blk.launch.ctx t.blk.launch.sys (t.faultRec f)) ∧
  (∀ (t : View) (f : FaultInfo), f.replayable = false →
    t.raise f = (t.terminate { f with addr := some (f.addr.getD t.pc) }).close) ∧
  (∀ (s : State) (t : View) (f : FaultInfo), s.view = some t → f.replayable = false → t.w.enrol = List.replicate 4 none →
    t.w.jobFault = none → (∀ e ∈ s.devEvents, e.1.withdraws (t.blk.launch.whose t.core t.w.num) = false) →
      ∃ b w, (t.raise f).block t.core = some b ∧ b.warp t.w.num = some w ∧ w.life = .terminated ∧ w.ring = [] ∧ w.depth = 0 ∧
        w.clause = none ∧ w.loads = [] ∧ w.outst = none ∧ w.tent = [] ∧ w.pushes = [] ∧ w.held = [] ∧
        (∀ o ∈ w.ops, ∃ size ps xs, o.body = .atomic size 0 ps xs) ∧
        ∀ h ∈ b.handles, h.own = t.w.num → h.st = .free) ∧
  (∀ (f : FaultInfo) (a : Addr) (n : Nat) (m : LaneMask), f.addr = some a → n < 64 → a.toNat < 2 ^ 55 → a.toNat % 4 = 0 →
    let bs := statusBytes f n m
    let q0 := leNat (bs.take 8)
    let q1 := leNat ((bs.drop 8).take 8)
    bs.length = 32 ∧ q0 % 16 = f.cls.toNat ∧ q0 / 16 % 64 = n ∧ q0 / 1024 % 2 = 1 ∧ q0 / 2048 = a.toNat / 4 ∧
      q1 % 65536 = f.detail.toNat ∧ q1 / 65536 % 2 ^ 32 = m.toNat)

/-- Decode faults, and what taking a fault saves and changes (R100 to R102, R430 to R436). -/
def Obligations.ExceptionEntries : Prop := Clause.DecodeFaults ∧ Clause.ExceptionEntry

/-! ### Memory -/

/-- The checks of an object access (R266): steps 2 and 3 at the object entry, in order, and steps 4 and 5 at the offsets, each
reporting the lowest lane that fails it. -/
def Obligations.AccessChecks : Prop :=
  (∀ (s : State) (core ctx n : Nat) (spaces : List Nat) (k : AccKind) (salt : List Nat) (ws : List Word64),
    s.objWords core ctx n salt = .ok ws →
      let e := objOfWords ws
      s.objCheck core ctx n spaces k salt =
        if e.v = false then .error (flt 0x09 0x03)
        else if e.ok = false then .error (flt 0x09 0x02)
        else if e.space ∉ spaces then .error (flt 0x09 0x0F)
        else if k.objRight e = false then .error (flt 0x09 0x01)
        else .ok e) ∧
  (∀ (e : ObjEntry) (size : Nat) (offs : List (Nat × Int)),
    let va (o : Nat × Int) : Addr := e.base + BitVec.ofInt 64 o.2
    boundsCheck e size offs =
      match offs.find? (fun o => decide (o.2 < 0 ∨ (e.len : Int) < o.2 + size)) with
      | some o => .error (((flt 0x07 0x00).at (va o)).onLane o.1)
      | none =>
        match offs.find? (fun o => decide ((va o).toNat % size ≠ 0)) with
        | some o => .error (((flt 0x0A 0x00).at (va o)).onLane o.1)
        | none => .ok ()) ∧
  (∀ (k : AccKind) (sys : Bool) (va : Addr) (l : Leaf), physRegion l.pa = .dram → pteD l.pte = false → pteCP l.pte = false →
    k ≠ .deferred →
      pageCheck k false false sys va l =
        if k.allowed l.pte = false then .error ((flt 0x09 k.pageDetail).at va)
        else if sys = false ∧ pteP l.pte = true then .error ((flt 0x09 (if k = .exec then 0x0B else 0x0A)).at va)
        else .ok ())

/-- LD, LDU, LDP, LDS and LDG issue (R207, R211, R216, R265, R266, R270, R271): after their checks the load is outstanding; nothing
is read and no byte changes before its lanes are performed. A seq_cst load waits for every earlier event of the warp (R247), one of a
deferred page for the block's commit in progress (R261). -/
def Obligations.LoadsIssue : Prop :=
  ∀ (f : FormD) (s : State) (t : View),
    let disp : Int := match f.imm with
      | none => 0
      | some p => p.toInt
    let offs := t.effLanes.map (fun l => (l, (if f.off = 0 then 0 else ((t.w.rv f.off.toNat l).toNat : Int)) + disp))
    let offsS := t.effLanes.map (fun l => (l, (if f.off = 0 then 0 else (t.w.rv f.off.toNat l).toInt) + disp))
    let n := objNum f.obj f.ext
    let L := t.blk.launch
    let later (dflt : BitVec 3) : Prop := ordD f = 4 ∧ 2 ≤ (scoD f dflt).toNat ∧ t.drained = false
    let heldBack (as : List LaneAcc) : Prop := t.blk.commit.isSome = true ∧ ∃ a ∈ as, pteD a.pte = true
    (∀ i os size dst, (i = .ld f ∧ os = offs ∧ size = 4 ∧ dst = .v f.data.toNat 1) ∨
        (i = .ldu f ∧ os = offs.take 1 ∧ size = 8 ∧ dst = .s (f.data.toNat % 64)) → Runs i s t →
      (∀ e, s.objLanes t.core L.ctx L.sys n [0, 2, 3] .read false size os = .error e → Stops i s t e) ∧
      (∀ e as, s.objLanes t.core L.ctx L.sys n [0, 2, 3] .read false size os = .ok (e, as) →
        (heldBack as ∨ later 4 → Waits i s t) ∧
        (¬ (heldBack as ∨ later 4) → LoadIssued i s t dst size (as.map (fun a => { lane := a.lane, va := some a.va, loc := a.loc }))))) ∧
    (Runs (.ldp f) s t →
      (∀ e, s.privLanes t.core L t.w.num .read offsS = .error e → Stops (.ldp f) s t e) ∧
      (∀ e as, s.privLanes t.core L t.w.num .read offsS = .ok (e, as) →
        (heldBack as ∨ later 0 → Waits (.ldp f) s t) ∧
        (¬ (heldBack as ∨ later 0) → LoadIssued (.ldp f) s t (.v f.data.toNat 1) 4 (as.map (fun a => a.place a.loc.shared))))) ∧
    (Runs (.lds f) s t →
      ((∃ o ∈ offs, t.blk.offBusy o.2 = true) → Waits (.lds f) s t) ∧
      ((∀ o ∈ offs, t.blk.offBusy o.2 = false) →
        (∀ e, scratchLanes t.blk t.core 4 offs = .error e → Stops (.lds f) s t e) ∧
        (∀ as, scratchLanes t.blk t.core 4 offs = .ok as →
          (later 2 → Waits (.lds f) s t) ∧
          (¬ later 2 → LoadIssued (.lds f) s t (.v f.data.toNat 1) 4 (offs.map (fun o =>
            { lane := o.1, va := none, loc := .bank t.core o.2.toNat })))))) ∧
    (Runs (.ldg f) s t →
      ((∃ o ∈ offs, t.gangBusy o.2 = true) → Waits (.ldg f) s t) ∧
      ((∀ o ∈ offs, t.gangBusy o.2 = false) →
        (∀ e, s.gangLanes t.core t.blk n .read 4 offs = .error e → Stops (.ldg f) s t e) ∧
        (∀ as, s.gangLanes t.core t.blk n .read 4 offs = .ok as →
          (later 3 → Waits (.ldg f) s t) ∧
          (¬ later 3 → LoadIssued (.ldg f) s t (.v f.data.toNat 1) 4 (as.map (fun a => { lane := a.lane, va := some a.va, loc := a.loc }))))))

/-- ST, STU, STP, STS and STG issue: after their checks one store for each lane, in lane order, stands in the warp's buffer with the
bytes of its register, the lowest first (R240, R268, R270, R271). -/
def Obligations.StoresIssue : Prop :=
  ∀ (f : FormD) (s : State) (t : View),
    let disp : Int := match f.imm with
      | none => 0
      | some p => p.toInt
    let offs := t.effLanes.map (fun l => (l, (if f.off = 0 then 0 else ((t.w.rv f.off.toNat l).toNat : Int)) + disp))
    let offsS := t.effLanes.map (fun l => (l, (if f.off = 0 then 0 else (t.w.rv f.off.toNat l).toInt) + disp))
    let n := objNum f.obj f.ext
    let L := t.blk.launch
    let word (a : LaneAcc) : Loc × List Byte := (a.loc, leBytes 4 (t.w.rv f.data.toNat a.lane).toNat)
    (Runs (.st f) s t →
      (∀ e, s.objLanes t.core L.ctx L.sys n [0, 2, 3] .write false 4 offs = .error e → Stops (.st f) s t e) ∧
      (∀ e as, s.objLanes t.core L.ctx L.sys n [0, 2, 3] .write false 4 offs = .ok (e, as) →
        StoresIssued (.st f) s t (as.map word) none)) ∧
    (Runs (.stu f) s t →
      (∀ e, s.objLanes t.core L.ctx L.sys n [0, 2, 3] .write false 8 (offs.take 1) = .error e → Stops (.stu f) s t e) ∧
      (∀ e as, s.objLanes t.core L.ctx L.sys n [0, 2, 3] .write false 8 (offs.take 1) = .ok (e, as) →
        StoresIssued (.stu f) s t (as.map (fun a => (a.loc, leBytes 8 (t.w.rs (f.data.toNat % 64)).toNat))) none)) ∧
    (Runs (.stp f) s t →
      (∀ e, s.privLanes t.core L t.w.num .write offsS = .error e → Stops (.stp f) s t e) ∧
      (∀ e as, s.privLanes t.core L t.w.num .write offsS = .ok (e, as) → StoresIssued (.stp f) s t (as.map word) none)) ∧
    (Runs (.sts f) s t →
      ((∃ o ∈ offs, t.blk.offBusy o.2 = true) → Waits (.sts f) s t) ∧
      ((∀ o ∈ offs, t.blk.offBusy o.2 = false) →
        (∀ e, scratchLanes t.blk t.core 4 offs = .error e → Stops (.sts f) s t e) ∧
        (∀ as, scratchLanes t.blk t.core 4 offs = .ok as → StoresIssued (.sts f) s t (as.map word) none))) ∧
    (Runs (.stg f) s t →
      ((∃ o ∈ offs, t.gangBusy o.2 = true) → Waits (.stg f) s t) ∧
      ((∀ o ∈ offs, t.gangBusy o.2 = false) →
        (∀ e, s.gangLanes t.core t.blk n .write 4 offs = .error e → Stops (.stg f) s t e) ∧
        (∀ as, s.gangLanes t.core t.blk n .write 4 offs = .ok as → StoresIssued (.stg f) s t (as.map word) none)))

/-- A buffered store is performed in one instant (R239): its bytes stand at its address, every other byte of memory reads as before,
and it leaves the buffer; one that must follow an earlier event changes nothing yet (R241, R247). A store to the scratchpad, or to a
peer's through a gang window, leaves its bytes there and changes no memory. -/
def Clause.StorePerformedFrame : Prop :=
  ∀ (s : State) (core warp k : Nat) (b : Block) (w : Warp) (o : StoreOp),
    s.block core = some b → b.warp warp = some w → w.buf[k]? = some (.store o) →
    (s.mayPerform core w k o = false → exec (.storePerformed core warp k) s = .next s) ∧
    (s.mayPerform core w k o = true → s.bad = [] → o.add = none →
      (∀ v pa, o.loc = .mem v pa → ∃ s', exec (.storePerformed core warp k) s = .next s' ∧ (HomeAgrees s →
        SameMemoryBut pa o.bytes.length s s' ∧ HomeAgrees s' ∧
          (MemoryWf s → MemoryWf s' ∧ ∀ j, j < o.bytes.length → s'.byteAt (pa + j) = (o.bytes.getD j 0, o.bytes.getD j 0)))) ∧
      (∀ off, o.loc = .bank core off → off + o.bytes.length ≤ b.scratchSize →
        ∃ s' b', exec (.storePerformed core warp k) s = .next s' ∧ SameMemory s s' ∧ s'.block core = some b' ∧
          b'.scratch = Cells.setMany b.scratch off o.bytes) ∧
      (∀ c off p, o.loc = .peer c off → s.block c = some p → off + o.bytes.length ≤ p.scratchSize →
        ∃ s' p', exec (.storePerformed core warp k) s = .next s' ∧ SameMemory s s' ∧ s'.block c = some p' ∧
          p'.scratch = Cells.setMany p.scratch off o.bytes))

/-- Lanes of an outstanding load are performed (R239, R241): each lane either waits still or has the bytes that its place holds now.
When all have been, the destination is written, lane by lane (R268), and a load of global memory is a sample of its gallery's monitors
(R427). -/
def Clause.LoadPerformed : Prop :=
  (∀ (s : State) (core warp k : Nat) (b : Block) (w : Warp) (ld : LoadOp),
    s.block core = some b → b.warp warp = some w → w.loads[k]? = some ld → w.fence = none → HomeAgrees s → s.bad = [] →
    (∀ p ∈ ld.lanes, s.bankGone p.loc ld.size = false) →
      ∃ s0 ps, exec (.loadResponse core warp k) s = .next ((s0.mapWarp core warp (fun x => x)).putLoad core warp { ld with lanes := ps }) ∧
        SameMemory s s0 ∧ ps.length = ld.lanes.length ∧
        ∀ x ∈ ld.lanes.zip ps, (∀ hv h sv sl off seen, x.1.loc ≠ .packed hv h sv sl off seen) →
          x.2 = x.1 ∨ x.2 = { x.1 with loc := s.readLane core warp ld.size x.1.loc }) ∧
  (∀ (s : State) (core warp n : Nat) (v : Via) (pa : Nat), s.bad = [] → v.vault = true ∨ HomeAgrees s →
    s.readLane core warp n (.mem v pa) = .got (leNat (Cells.getMany s.mem pa n))) ∧
  (∀ (s : State) (core warp r : Nat) (ld : LoadOp) (vals : List Nat), ld.dst = .v r 1 →
    ld.lanes.map LanePlace.loc = vals.map Loc.got →
      let s2 := ((s.mapWarp core warp (fun x =>
        { x with loads := x.loads.map (fun y => if y.seq == ld.seq then ld else y) })).mapWarp core warp (fun x =>
        { x with loads := x.loads.filter (fun y => y.seq != ld.seq) })).writeRegs core warp
          (ld.lanes.map (fun p => .v r p.lane (BitVec.ofNat 32 p.value)))
      s.putLoad core warp ld = if ld.glob then s2.sample (core / 8) 1 ld.since else s2)

/-- The home slices and the vault cache (R224, R226, R234): a conservator writes the vault cache and leaves a slice that holds the sector
as it was; a dirty sector that leaves its slice is written back whole, over what has been applied since; a store to a sector so held
changes the slice alone; an access of class 3 adds no sector, and leaves none of its lines dirty. -/
def Clause.HomeSlices : Prop :=
  (∀ (s : State) (pa : Nat) (bs : List Byte) (e : HomeSector), s.home = [e] → e.old = none → bs ≠ [] → pa / 128 = e.sector →
    pa % 128 + bs.length ≤ 128 →
      (s.applyWrite pa bs).mem = Cells.setMany s.mem pa bs ∧
        (s.applyWrite pa bs).home = [{ e with old := some (Cells.getMany s.mem (128 * e.sector) 128) }]) ∧
  (∀ (s : State) (k : Nat) (old : List Byte),
    (∀ st, s.home = [{ sector := k, dirty := true, stream := st, old := some old }] →
      (s.evict k).mem = Cells.setMany s.mem (128 * k) old ∧ (s.evict k).home = []) ∧
    (∀ st, s.home = [{ sector := k, dirty := false, stream := st, old := some old }] → (s.evict k).mem = s.mem ∧ (s.evict k).home = [])) ∧
  (∀ (s : State) (pa : Nat) (x : Byte) (d st : Bool) (old : List Byte),
    s.home = [{ sector := pa / 128, dirty := d, stream := st, old := some old }] →
      (s.writePhys pa [x]).mem = s.mem ∧
        (s.writePhys pa [x]).home = [{ sector := pa / 128, dirty := true, stream := st, old := some (old.set (pa % 128) x) }]) ∧
  (∀ (s : State) (d : Bool) (v : Via) (pa n : Nat), v.vault = false → 3 ≤ v.cls → (s.home.map HomeSector.sector).Nodup →
    ∀ e ∈ (s.visitMem d v pa n).home, e.sector ∈ s.home.map HomeSector.sector ∧
      (∀ k ∈ sectorsOf pa n, e.sector / 8 = k / 8 → e.dirty = false))

/-- A store and a load performed at their places, and what a home slice keeps apart from the vault cache (R234, R239 to R241). -/
def Obligations.MemoryEvents : Prop := Clause.StorePerformedFrame ∧ Clause.LoadPerformed ∧ Clause.HomeSlices

/-- FPUT and FGET act on the ring of a bank in FIFO mode: class 0x09 detail 0x06 otherwise, also when the mode changed under a wait
(R214); FPUT waits for room for all lanes of E and appends them in lane order, FGET waits for as many entries and takes them in lane
order; groups that wait keep the order of their arrival (R213, R272). Both wait at their issue for a pending FENCE (R252; log entry 21, the
model's choice). -/
def Clause.FifoRings : Prop :=
  (∀ (f : FormD) (s : State) (t : View),
    let k := f.obj.toNat
    let r := t.blk.ring k
    let n := t.effLanes.length
    let goes : Block := t.blk.leaveFifo t.w.num
    let later (ords : List (BitVec 3)) : Prop := ordD f ∈ ords ∧ 2 ≤ (scoD f 2).toNat ∧ t.drained = false
    let calm : Prop := ∀ c d, t.w.wait ≠ some (.failed c d)
    let open' : Prop := calm ∧ t.blk.changing k = false ∧ Cells.get t.blk.bankMode k = 3 ∧ t.w.fence = none
    let turn (put : Bool) : Prop := (t.blk.fifoQueue k put).headD t.w.num = t.w.num
    let joins (i : Instr) (put : Bool) : Prop := exec i s = .next (View.stalled { t with
      blk := if t.w.num ∈ t.blk.fifoQueue k put then t.blk else { t.blk with fifoWait := t.blk.fifoWait ++ [(k, put, t.w.num)] }
      w := { t.w with wait := some (.fifo k) } } (.long 200)).close
    (∀ i ∈ [Instr.fput f, .fget f], Runs i s t →
      (∀ c d, t.w.wait = some (.failed c d) → c ≠ 0 → exec i s = .next (View.raise { t with blk := goes } (flt c d))) ∧
      (calm → t.blk.changing k = true → Waits i s t) ∧
      (calm → t.blk.changing k = false → Cells.get t.blk.bankMode k ≠ 3 → Raises i s t (flt 0x09 0x06)) ∧
      (calm → t.blk.changing k = false → Cells.get t.blk.bankMode k = 3 → t.w.fence ≠ none → Waits i s t)) ∧
    (Runs (.fput f) s t → open' →
      (later [2, 3, 4] → Waits (.fput f) s t) ∧
      (¬ later [2, 3, 4] → ¬ (turn true ∧ r.words.length + n ≤ 4096) → joins (.fput f) true) ∧
      (¬ later [2, 3, 4] → turn true → r.words.length + n ≤ 4096 →
        Completes (.fput f) s { t with blk := goes.setRing { r with words := r.words ++ t.effLanes.map (t.w.rv f.data.toNat) } })) ∧
    (Runs (.fget f) s t → open' →
      (later [4] → Waits (.fget f) s t) ∧
      (¬ later [4] → ¬ (turn false ∧ n ≤ r.words.length) → joins (.fget f) false) ∧
      (¬ later [4] → turn false → n ≤ r.words.length →
        Completes (.fget f) s { t with
          blk := goes.setRing { r with head := (r.head + n) % 4096, words := r.words.drop n }
          w := t.w.wvEach f.data.toNat (fun l => r.words.getD (t.effLanes.findIdx (fun x => x == l)) 0) t.effLanes }))) ∧
  (∀ (b : Block) (r : Fifo), (b.setRing r).ring r.bank = r ∧ ∀ j, j ≠ r.bank → (b.setRing r).ring j = b.ring j)

/-- CCTL refuses a length above 2^36, waits for the warp's stores, and changes no register and no byte that an access can tell:
CCTL.ifetch drops the earlier forms of the code in its range, .flush empties the home slices of the range, .wb leaves them clean (R104,
R293). A code word is fetched as memory holds it or in an earlier form that it had since its grid was enqueued (R104). BANKCFG refuses a
mask beyond bit 47, does nothing for an empty mask, refuses a scratchpad that is not banks 0 to 4q − 1, and otherwise leaves the change
to complete while the warp goes on; changes complete in order, and after one the named banks have their mode and the others theirs
(R210, R214, R215, R294; that the layout is judged with the changes in flight made is the model's choice, log entry 65). -/
def Clause.CacheAndBanks : Prop :=
  (∀ (i : Instr) (f : FormH) (s : State) (t : View), i ∈ [.cctlIfetch f, .cctlFlush f, .cctlWb f] → Runs i s t →
    let lo := (t.w.rs f.sa).toNat
    let n := (t.w.rs f.sb).toNat
    let mapped (k : Nat) : Bool := s.rangeMaps t.blk.launch.ctx lo n k
    (2 ^ 36 < n → Raises i s t (flt 0x02 0x00)) ∧
    (n = 0 → Completes i s t) ∧
    (n ≤ 2 ^ 36 → n ≠ 0 → t.w.buf ≠ [] ∨ s.netPending t.core t.w.num t.w.seq = true → Waits i s t) ∧
    (n ≤ 2 ^ 36 → n ≠ 0 → t.w.buf = [] → s.netPending t.core t.w.num t.w.seq = false →
      ∃ t' : View, Completes i s t' ∧ t'.w = t.w ∧ t'.blk = t.blk ∧ (HomeAgrees s → SameMemory s t'.retire.close) ∧
        (i = .cctlIfetch f → ∀ e, e ∈ t'.dev.oldCode ↔ e ∈ s.oldCode ∧ mapped e.sector = false) ∧
        (i = .cctlFlush f → ∀ e ∈ t'.dev.home, mapped e.sector = false) ∧
        (i = .cctlWb f → (s.home.map HomeSector.sector).Nodup → ∀ e ∈ t'.dev.home, mapped e.sector = true → e.dirty = false))) ∧
  (∀ (s : State) (core : Nat) (l : Launch) (va : Addr) (w : Word32), s.bad = [] → HomeAgrees s → s.codeWord core l va = .ok w →
    ∃ leaf, s.translate l.ctx l.sys .exec va [300] = .ok leaf ∧ (∀ v pa, s.placeAt leaf = .mem v pa →
      w = BitVec.ofNat 32 (leNat (Cells.getMany s.mem pa 4)) ∨
        ∃ e ∈ s.oldCode, ∃ g ∈ s.grids, l.ofGrid g = true ∧ g.enqueued < e.ended ∧ e.sector = pa / 128 ∧
          w = BitVec.ofNat 32 (leNat ((e.bytes.drop (pa % 128)).take 4)))) ∧
  (∀ (f : FormH) (s : State) (t : View), Runs (.bankcfg f) s t →
    let x := (t.w.rs f.sa).toNat
    let banks := (t.w.rs f.sa).extractLsb' 0 48
    let mode := f.fn.extractLsb' 0 2
    let after := newModes (t.blk.bankChanges.foldl (fun m c => newModes m c.banks c.mode 48) t.blk.bankMode) banks mode 48
    let pads := (List.range 48).filter (fun k => Cells.get after k == 2)
    let laidOut : Prop := ∃ q, pads = List.range (4 * q)
    (2 ^ 48 ≤ x → Raises (.bankcfg f) s t (flt 0x02 0x07)) ∧
    (x = 0 → Completes (.bankcfg f) s t) ∧
    (x < 2 ^ 48 → x ≠ 0 → ¬ laidOut → Raises (.bankcfg f) s t (flt 0x02 0x07)) ∧
    (x < 2 ^ 48 → x ≠ 0 → laidOut →
      Completes (.bankcfg f) s { t with
        blk := { t.blk with bankChanges := t.blk.bankChanges ++ [{ warp := t.w.num, seq := t.w.seq, banks := banks, mode := mode }] }
        w := { t.w with seq := t.w.seq + 1 } })) ∧
  (∀ (m : Cells 2) (banks : BitVec 48) (mode : BitVec 2) (k : Nat), Cells.wf m = true → k < 48 →
    Cells.get (newModes m banks mode 48) k = if banks.getLsbD k then mode else Cells.get m k) ∧
  (∀ (s : State) (core : Nat) (b : Block) (c : BankChange) (rest : List BankChange), s.block core = some b → b.bankChanges = c :: rest →
    (∀ w ∈ b.warps, w.usesBanks core c.banks = false) → b.jobs = [] →
      ∃ s' b', exec (.bankModeChangeComplete core) s = .next s' ∧ s'.block core = some b' ∧ b'.bankChanges = rest ∧
        b'.bankMode = newModes b.bankMode c.banks c.mode 48 ∧ SameMemory s s' ∧
        (∀ x, c.banks.getLsbD (bankOf x) = false → Cells.get b'.scratch x = Cells.get b.scratch x) ∧
        (∀ k, c.banks.getLsbD k = false → b'.ring k = b.ring k))

/-- FIFO rings, cache control and bank modes (R212 to R218, R272 to R285). -/
def Obligations.FifoCacheBanks : Prop := Clause.FifoRings ∧ Clause.CacheAndBanks

/-! ### Atomics -/

/-- The atomics and the lock operations issue (R266, R274 to R276, R279): after their checks, and once the warp may enter a region, their
lanes are under way with the operands that their registers hold; the ring is switched and a region is entered, which resumes at the next
header (R30, R33). ATOMS acts on the scratchpad and enters none. SPADD buffers its additions (R277), and then does both. The spaces that
ATOMC accepts are the model's choice (log entry 66), and so is that the switch is tried as the instruction issues (log entry 18). -/
def Obligations.AtomicsIssue : Prop :=
  ∀ (f : FormE) (s : State) (t : View),
    let disp : Int := match f.imm with
      | none => 0
      | some p => p.toInt
    let offs := t.effLanes.map (fun l => (l, (if f.a = 0 then 0 else ((t.w.rv f.a.toNat l).toNat : Int)) + disp))
    let n := objNum f.obj f.ext
    let L := t.blk.launch
    let width := 4 * typWords f.typ
    let ring := switchRing (setRunPc t.w.ring t.nextHeader)
    let under (i : Instr) (size : Nat) (ps : List LanePlace) : Op :=
      { seq := t.w.seq, pc := t.pc, instr := i, since := s.clock,
        body := .atomic size t.eff ps (ps.map (fun p => (p.lane, t.w.laneArgs i p.lane))) }
    let entered (t' : View) : Prop :=
      t'.w.ring = ring ∧ t'.w.ckpt.ring = ring ∧ (t.w.running.isSome = true → t'.w.ckpt.resume = t.nextHeader) ∧ t'.w.v = t.w.v ∧
        t'.w.s = t.w.s ∧ t'.w.p = t.w.p ∧ t'.w.fpflags = t.w.fpflags ∧ t'.w.satflag = t.w.satflag ∧ SameMemory s t'.retire.close
    (∀ i spaces size, (i = .atom f ∧ spaces = [0, 2, 3] ∧ size = width) ∨ (i = .atomc f ∧ spaces = [0, 2, 3] ∧ size = width) ∨
        (i = .atomx f ∧ spaces = [0, 2] ∧ size = 16) ∨
        (i ∈ [.rwlrd f, .rwlwr f, .rwlup f, .rwlrel f] ∧ spaces = [0, 2] ∧ size = 8) → Runs i s t →
      (∀ e, s.objLanes t.core L.ctx L.sys n spaces .rmw false size offs = .error e → Stops i s t e) ∧
      (∀ e as, s.objLanes t.core L.ctx L.sys n spaces .rmw false size offs = .ok (e, as) →
        (t.mayEnter = false ∨ t.commitHolds as = true → Waits i s t) ∧
        (t.entersFreely → t.commitHolds as = false → t.w.ring.length ≤ 4 →
          ∃ t' : View, Completes i s t' ∧ t'.w.ops = t.w.ops ++ [under i size (as.map (fun a => a.place true))] ∧
            t'.w.buf = t.w.buf ∧ entered t'))) ∧
    (Runs (.atoms f) s t →
      ((∃ o ∈ offs, t.blk.offBusy o.2 = true) → Waits (.atoms f) s t) ∧
      ((∀ o ∈ offs, t.blk.offBusy o.2 = false) →
        (∀ e, scratchLanes t.blk t.core width offs = .error e → Stops (.atoms f) s t e) ∧
        (∀ as, scratchLanes t.blk t.core width offs = .ok as →
          (t.w.fence.isSome = true → Waits (.atoms f) s t) ∧
          (t.w.fence = none → Completes (.atoms f) s (t.setW { t.w with
            seq := t.w.seq + 1
            ops := t.w.ops ++ [under (.atoms f) width (offs.map (fun o =>
              { lane := o.1, va := none, loc := .bank t.core o.2.toNat }))] }))))) ∧
    (Runs (.spadd f) s t →
      ((∃ o ∈ offs, t.gangBusy o.2 = true) → Waits (.spadd f) s t) ∧
      ((∀ o ∈ offs, t.gangBusy o.2 = false) →
        (∀ e, s.gangLanes t.core t.blk n .rmw 4 offs = .error e → Stops (.spadd f) s t e) ∧
        (∀ as, s.gangLanes t.core t.blk n .rmw 4 offs = .ok as →
          (t.mayEnter = false → Waits (.spadd f) s t) ∧
          (t.entersFreely → t.w.ring.length ≤ 4 →
            ∃ (t' : View) (os : List StoreOp), Completes (.spadd f) s t' ∧ t'.w.buf = t.w.buf ++ os.map BufEntry.store ∧
              os.map (fun o => (o.loc, o.bytes)) = as.map (fun a => (a.loc, leBytes 4 (t.w.rv f.d.toNat a.lane).toNat)) ∧
              (∀ o ∈ os, o.add = some f.typ) ∧ t'.w.ops = t.w.ops ∧ entered t'))))

/-- New values of ATOM and ATOMS (R274), of the compares (R275, R276), and what the registers receive. -/
def Clause.AtomicValues : Prop :=
  ∀ (f : FormE) (w : Warp) (blk : Word32) (l old : Nat),
    let v := w.rvNat (f.x.extractLsb' 0 7).toNat l (typWords f.typ)
    let new (i : Instr) : Option Nat := (laneRmw i blk (w.laneArgs i l) old).new
    let c := w.rvNat f.d.toNat l (typWords f.typ)
    let c4 := w.rvNat f.d.toNat l 4
    let v4 := w.rvNat (f.x.extractLsb' 0 7).toNat l 4
    let W := if f.typ = 12 ∨ f.typ = 13 then 64 else 32
    let less (x y : Nat) : Prop := if f.typ = 10 ∨ f.typ = 12 then (BitVec.ofNat W x).toInt < (BitVec.ofNat W y).toInt else x < y
    (∀ i ∈ [Instr.atom f, .atoms f],
      (f.opr = 0 → f.typ ∈ [10, 11, 12, 13] → new i = some ((old + v) % 2 ^ W)) ∧
      (f.opr = 0 → f.typ = 0 → new i = some (fmtF32.addBits old v).val) ∧
      (f.opr = 1 → f.typ ∈ [10, 11, 12, 13] → (less v old → new i = some v) ∧ (¬ less v old → new i = some old)) ∧
      (f.opr = 2 → f.typ ∈ [10, 11, 12, 13] → (less old v → new i = some v) ∧ (¬ less old v → new i = some old)) ∧
      (f.opr = 3 → new i = some (old &&& v)) ∧ (f.opr = 4 → new i = some (old ||| v)) ∧ (f.opr = 5 → new i = some (old ^^^ v)) ∧
      (f.opr = 6 → new i = some v) ∧
      (f.opr = 7 → old < 2 ^ 32 → v < 2 ^ 32 → ∀ x, new i = some x → ∀ k, k < 4 →
        x / 256 ^ k % 256 = if f.x.getLsbD (7 + k) then v / 256 ^ k % 256 else old / 256 ^ k % 256)) ∧
    (old = c → new (.atomc f) = some v) ∧ (old ≠ c → new (.atomc f) = none) ∧
    (f.opr = 0 → old = c4 → new (.atomx f) = some v4) ∧ (f.opr = 0 → old ≠ c4 → new (.atomx f) = none) ∧
    (f.opr = 1 → new (.atomx f) = some v4) ∧
    (f.sub.getLsbD 0 = true → w.deliverRmw (.atom f) blk l old = w.wvNat f.d.toNat l old (typWords f.typ)) ∧
    (f.sub.getLsbD 0 = false → w.deliverRmw (.atom f) blk l old = w) ∧
    w.deliverRmw (.atomc f) blk l old = w.wvNat f.d.toNat l old (typWords f.typ) ∧
    w.deliverRmw (.atomx f) blk l old = w.wvNat f.d.toNat l old 4

/-- The lock operations on a lock word's fields (R278, R279): success, the fields written on success and on failure, and the predicate
bit of the lane. -/
def Clause.LockValues : Prop :=
  ∀ (f : FormE) (w : Warp) (blk : Word32) (x : Nat × Nat) (l rc ww ob : Nat) (wh wp : Bool), rc < 2 ^ 32 → ww < 2 ^ 14 → ob < 2 ^ 16 →
    let word (rc : Nat) (wh : Bool) (ww ob : Nat) : Nat := rc + 2 ^ 32 * wh.toNat + 2 ^ 33 * wp.toNat + 2 ^ 34 * ww + 2 ^ 48 * ob
    let old := word rc wh ww ob
    let me := blk.toNat % 2 ^ 16
    let gives (i : Instr) (ok : Bool) (new : Nat) : Prop :=
      (laneRmw i blk x old).ok = ok ∧ (laneRmw i blk x old).new.getD old = new
    let free := !wh && rc == 0
    let rd := !wh && !(wp && decide (0 < ww)) && decide (rc < 2 ^ 32 - 1)
    let mine := wh && ob == me
    gives (.rwlrd f) rd (if rd then word (rc + 1) wh ww ob else old) ∧
    (f.opr = 0 → gives (.rwlwr f) free (if free then word rc true ww me else old)) ∧
    (f.opr = 1 → gives (.rwlwr f) free (if free then word rc true ww me else word rc wh (min (ww + 1) 16383) ob)) ∧
    (f.opr = 2 → gives (.rwlwr f) free (if free then word rc true (ww - 1) me else old)) ∧
    (f.opr = 3 → gives (.rwlwr f) false (word rc wh (ww - 1) ob)) ∧
    gives (.rwlup f) (!wh && rc == 1) (if !wh && rc == 1 then word 0 true ww me else old) ∧
    (f.opr = 0 → gives (.rwlrel f) (decide (0 < rc)) (word (rc - 1) wh ww ob)) ∧
    (f.opr = 1 → gives (.rwlrel f) mine (if mine then word rc false ww 0 else old)) ∧
    (f.opr = 2 → gives (.rwlrel f) mine (if mine then word 1 false ww 0 else old)) ∧
    (∀ i ∈ [Instr.rwlrd f, .rwlwr f, .rwlup f], w.deliverRmw i blk l old = w.wp (f.sub.extractLsb' 0 3).toNat (1#32 <<< l)
      (if (laneRmw i blk x old).ok then 0xFFFFFFFF else 0))

/-- The values of atomics and locks (R274 to R283). -/
def Obligations.AtomicResults : Prop := Clause.AtomicValues ∧ Clause.LockValues

/-- Lanes of an atomic are performed in ascending order (R240, R242): one that may be reads its word and, in the same instant, writes
the new one; the event goes on with what has been performed. When every lane has been, the old values are delivered to its registers. -/
def Obligations.AtomicPerformed : Prop :=
  (∀ (s : State) (core warp : Nat) (t : View) (a : AtomicOp), s.viewOf core warp = some t → t.w.ops = [a.op] →
    a.op.body = .atomic a.size a.eff a.lanes a.args →
      ∃ take, let r := performRmws core t.w a t.blk.launch.block (s.allDone core t.w a.op.seq) take a.lanes [] s
        exec (.atomicResponse core warp) s = .next (r.1.putAtomic core warp a r.2)) ∧
  (∀ (s : State) (core pa : Nat) (via : Via) (w : Warp) (a : AtomicOp) (blk : Word32) (take : Nat → Bool) (p : LanePlace) (r : List LanePlace),
    p.loc = .mem via pa → take p.lane = true → s.accessHeld core w a.op.seq (.mem via pa) a.size = false → s.bad = [] → HomeAgrees s →
      let old := leNat (Cells.getMany s.mem pa a.size)
      let x := ((a.args.find? (fun x => x.1 == p.lane)).map Prod.snd).getD (0, 0)
      let s0 := s.visit false (.mem via pa) a.size
      let s' := match (laneRmw a.op.instr blk x old).new with
        | none => s0
        | some v => s0.writeVia via pa (leBytes a.size v)
      performRmws core w a blk true take (p :: r) [] s =
        ((performRmws core w a blk true take r [] s').1,
          { p with loc := .got old } :: (performRmws core w a blk true take r [] s').2)) ∧
  (∀ (s : State) (via : Via) (pa n : Nat) (bs : List Byte), HomeAgrees s →
    SameMemory s (s.visit false (.mem via pa) n) ∧ SameMemoryBut pa bs.length s (s.writeVia via pa bs) ∧
    (MemoryWf s → ∀ j, j < bs.length → (s.writeVia via pa bs).byteAt (pa + j) = (bs.getD j 0, bs.getD j 0))) ∧
  (∀ (s : State) (core n : Nat) (t : View) (a : AtomicOp) (ps : List LanePlace), s.viewOf core n = some t → t.w.life = .live →
    a.eff ≠ 0 → s.bad = [] → (∀ p ∈ ps, ∃ x, p.loc = .got x) →
      s.putAtomic core n a ps = (t.setW (ps.foldl (fun w p => w.deliverRmw a.op.instr t.blk.launch.block p.lane p.value)
        { t.w with ops := t.w.ops.filter (fun o => o.seq != a.op.seq) })).close)

/-! ### Copies, deferred stores and commits -/

/-- CPY and CPYG join the block's job list after the checks of R284; they wait for a bank of theirs whose mode changes (R215), and while
the list holds 64 jobs (R285). CPYW waits until at most n jobs of the warp are incomplete, and raises the fault of one first (R286,
R287). -/
def Clause.CopiesIssue : Prop :=
  (∀ (f : FormE) (s : State) (t : View) (i : Instr) (gather : Bool), (i = .cpy f ∧ gather = false) ∨ (i = .cpyg f ∧ gather = true) →
    Runs i s t →
      let live (r l : Nat) (absent : Word32) : Word32 := if t.w.liveLanes.getLsbD l then t.w.rv r l else absent
      let rows : List Word32 :=
        if gather = false then []
        else if f.a = 0 then (List.range 32).map (fun l => if t.w.liveLanes.getLsbD l then 0 else 0xFFFFFFFF)
        else (List.range 32).map (fun l => live f.a.toNat l 0xFFFFFFFF)
      let j : Job :=
        { gather := gather, toGlobal := f.sub == 1, words := (List.range 8).map (fun l => live f.d.toNat l 0), rows := rows,
          warp := t.w.num, pc := t.pc, seq := t.w.seq, ident := s.nextIdent, obj := objNum f.obj f.ext, entry := [], disp := immDisp f.imm,
          state := .waiting, row := 0, moved := [], crc := 0xFFFFFFFF, since := 0, trans := [], reads := [], writes := [], unknown := false,
          dfr := false }
      let blocked : Prop := j.descOk = true ∧ j.bankBusy t.blk = true
      (blocked → Waits i s t) ∧
      (¬ blocked → ∀ e, j.check t = .error e → Stops i s t e) ∧
      (¬ blocked → ∀ e, j.check t = .ok e →
        (64 ≤ t.blk.jobs.length ∨ t.w.fence.isSome = true → Waits i s t) ∧
        (t.blk.jobs.length < 64 → t.w.fence = none →
          ∃ (t' : View) (j' : Job), Completes i s t' ∧ t'.w = { t.w with seq := t.w.seq + 1 } ∧ t'.blk = { t.blk with jobs := t.blk.jobs ++ [j'] } ∧
            j'.words = j.words ∧ j'.rows = j.rows ∧ j'.state = .waiting ∧ j'.warp = t.w.num ∧ j'.toGlobal = j.toGlobal ∧
            j'.ident = s.nextIdent ∧ SameMemory s t'.retire.close))) ∧
  (∀ (f : FormH) (s : State) (t : View), Runs (.cpyw f) s t →
    let left := (t.blk.jobs.filter (fun j => j.warp == t.w.num)).length
    (∀ e, t.w.jobFault = some e → e.cls ≠ 0 →
      exec (.cpyw f) s = .next ((t.setW { t.w with jobFault := none }).raise { e with addr := none })) ∧
    (t.w.jobFault = none → (f.fn.extractLsb' 0 6).toNat < left → Waits (.cpyw f) s t) ∧
    (t.w.jobFault = none → left ≤ (f.fn.extractLsb' 0 6).toNat → Completes (.cpyw f) s t))

/-- The limits of a copy descriptor (R281, R282): a legal one has rows of 16 to 32,768 bytes in multiples of 16, at least one of them,
and zeros in its reserved bits. -/
def Clause.CopyDescriptor : Prop :=
  ∀ j : Job, j.descOk = true →
    16 ≤ j.word 2 % 65536 ∧ j.word 2 % 65536 ≤ 32768 ∧ j.word 2 % 16 = 0 ∧ 1 ≤ j.word 2 / 65536 ∧ j.word 4 < 65536 ∧ j.word 7 = 0 ∧
    (j.gather = true → j.word 2 / 65536 = 1 ∧ j.word 6 % 2 = 0) ∧
    (j.word 6 % 2 = 1 → j.toGlobal = false ∧ j.rb / j.es % 16 = 0 ∧ j.nr * j.es % 16 = 0)

/-- CPY, CPYG and CPYW, and the copy descriptor (R284 to R287). -/
def Obligations.Copies : Prop := Clause.CopiesIssue ∧ Clause.CopyDescriptor

/-- The jobs (R255, R282, R285, R286): one starts when no earlier job of its block conflicts with it and the stores and drains that come
before it have been performed; a unit of a plain copy takes 16 bytes of memory to its scratchpad row, or back; one that has moved
everything ends; one that meets a page which is not resident is suspended, and one that is refused leaves the list. -/
def Obligations.JobsRun : Prop :=
  (∀ (s : State) (core k : Nat) (b : Block) (j : Job), s.block core = some b → b.jobs[k]? = some j → j.state = .waiting →
    ((b.jobs.take k).any j.conflicts = false → (∀ w, b.warp j.warp = some w → j.awaitsStores core w = false) →
      s.jobAwaitsNet core b j = false → (j.dfr = true → b.commit = none) →
        exec (.jobStart core k) s = .next (s.putJob core k (some { j with state := .running }))) ∧
    ((b.jobs.take k).any j.conflicts = true → exec (.jobStart core k) s = .next s)) ∧
  (∀ (s : State) (core r u : Nat) (b : Block) (j j' : Job) (v : Via) (pa : Nat) (dfr : Bool), j.tr = false → j.entry ≠ [] → s.bad = [] →
    s.placeHeld core (.mem v pa) 16 = false →
    (j.toGlobal = false → HomeAgrees s → (dfr = true → b.commit = none) →
      s.jobPlace b.launch (objOfWords j.entry) .read j r ((j.gOff r).toNat + 16 * u) = .ok (.mem v pa, dfr, j') →
        let s0 := s.visit false (.mem v pa) 16
        let bs := Cells.getMany s.mem pa 16
        s.jobMove core b j r u = .ok (bs, j', s0.writeLoc core j.warp (.bank core (16 * (j.soff + r * j.sstr) + 16 * u)) bs)) ∧
    (j.toGlobal = true → s.block core = some b →
      s.jobPlace b.launch (objOfWords j.entry) .write j r ((j.gOff r).toNat + 16 * u) = .ok (.mem v pa, dfr, j') →
        let bs := Cells.getMany b.scratch (16 * (j.soff + r * j.sstr) + 16 * u) 16
        s.jobMove core b j r u = .ok (bs, j', s.writeVia v pa bs))) ∧
  (∀ (s : State) (core k : Nat) (b : Block) (j0 : Job), s.block core = some b → b.jobs[k]? = some j0 → j0.state = .running →
    let j := j0.skip
    let x := j.nextUnit s 0
    (j0.over = true → exec (.jobComplete core k) s = .next ((s.putJob core k (some j)).jobEnd core k j)) ∧
    (∀ f, j.over = false → s.jobMove core b j x.1 x.2 = .fails f →
      let back : Job := { j with state := .suspended, moved := [], trans := [], since := s.clock }
      let rcd : FaultRec := FaultRec.mk (f.va.getD 0) f.cls f.detail 1 (if j.toGlobal then 1 else 0) b.launch.block j.warp core
      (f.replayable = true → exec (.jobFault core k) s = .next s ∧
        exec (.jobSuspend core k) s = .next ((s.putJob core k (some back)).postFault b.launch.ctx b.launch.sys rcd)) ∧
      (f.replayable = false → exec (.jobSuspend core k) s = .next s ∧
        exec (.jobFault core k) s = .next ((s.putJob core k none).jobFails core j f))))

/-- DST appends one tentative record for each lane of E after its checks: the quota of 4,096 ÷ warps raises class 0x05 detail 0x02
(R40), a full log, a missing tag or a pending FENCE makes it wait (R252, R290). The spaces that it accepts are the model's choice (log
entry 66). COMMIT is refused at grid scope outside a cooperative record, waits for a
commit in progress and for deferred reads (R261, R291), and is a region entry with the commit in progress, which closes the block's tag
and its pending ones. -/
def Obligations.DeferredIssue : Prop :=
  (∀ (f : FormE) (s : State) (t : View), Runs (.dst f) s t →
    let disp : Int := match f.imm with
      | none => 0
      | some p => p.toInt
    let offs := t.effLanes.map (fun l => (l, (if f.a = 0 then 0 else ((t.w.rv f.a.toNat l).toNat : Int)) + disp))
    let L := t.blk.launch
    let n := t.effLanes.length
    let objs := s.objLanes t.core L.ctx L.sys (objNum f.obj f.ext) [0, 2, 3] .deferred false (4 * dstWords f.opr) offs s.dstRoute
    (4096 / L.nwarps < t.w.tent.length + n → Raises (.dst f) s t (flt 0x05 0x02)) ∧
    (t.w.tent.length + n ≤ 4096 / L.nwarps →
      (∀ e, objs = .error e → Stops (.dst f) s t e) ∧
      (∀ e as, objs = .ok (e, as) →
        (4096 < t.blk.logUse + n ∨ t.blk.tag = none ∨ t.w.fence.isSome = true → Waits (.dst f) s t) ∧
        (t.blk.logUse + n ≤ 4096 → t.blk.tag.isSome = true → t.w.fence = none →
          ∃ t' : View, Completes (.dst f) s t' ∧ t'.blk = t.blk ∧ SameMemory s t'.retire.close ∧
            t'.w = { t.w with tent := t.w.tent ++ as.filterMap (dstRecord f t.w) })))) ∧
  (∀ (f : FormE) (w : Warp) (a : LaneAcc) (v : Via) (pa : Nat), a.loc = .mem v pa → f.opr = 0 →
    dstRecord f w a = some { bin := pa / 2048 % 256, rcd :=
      { word := BitVec.ofNat 46 (pa / 4), op := 0, tag := 0, lo := w.rv f.d.toNat a.lane, hi := 0 } }) ∧
  (∀ (f : FormH) (s : State) (t : View), Runs (.commit f) s t →
    let sco := f.fn.extractLsb' 0 3
    (sco = 4 → t.blk.launch.coop = false → Raises (.commit f) s t (flt 0x0D 0x03)) ∧
    ((sco ≠ 4 ∨ t.blk.launch.coop = true) →
      (t.blk.commit.isSome = true ∨ t.blk.deferredReads = true ∨ t.mayEnter = false → Waits (.commit f) s t) ∧
      (t.blk.commit = none → t.blk.deferredReads = false → t.entersFreely →
        ∃ (t' : View) (c : Commit), Completes (.commit f) s t' ∧ t'.w.outst = some (.commit f.sd s.clock) ∧ t'.w.tent = [] ∧
          t'.w.ckpt.resume = t.nextHeader ∧ t'.w.v = t.w.v ∧ t'.w.s = t.w.s ∧ t'.w.p = t.w.p ∧ t'.blk.commit = some c ∧
          c.warp = some (t.w.num, f.sd) ∧ c.scope = sco ∧ (t.blk.tag = none → c.needTag = true) ∧
          (∀ r, t.blk.tag = some r → c.needTag = false ∧ c.tags = r :: t.blk.pendingTags ∧ t'.blk.pendingTags = []) ∧
          SameMemory s t'.retire.close)))

/-- The operators of deferred records (R68, R69, R259, R289): add.i32 wraps and every record counts, AND and OR act on raw bits, ovw.b64
of a word's pair comes after ovw.b32 of the word, of several of one operator the last of the highest source decides (R341; log entry 75),
before other operators apply, and f32 minimum and maximum give the canonical NaN for a NaN. -/
def Obligations.DeferredOperators : Prop :=
  ∀ (tick salt old : Nat) (rs : List (BitVec 12 × DefRec)),
    let lo (r : BitVec 12 × DefRec) : Nat := r.2.lo.toNat
    (rs ≠ [] → (∀ r ∈ rs, r.2.op = 0) → applyAll tick salt 0 old rs = (old + (rs.map lo).sum) % 2 ^ 32) ∧
    ((∀ r ∈ rs, r.2.op = 12) → applyAll tick salt 12 old rs = (rs.map lo).foldl (fun x y => x &&& y) old) ∧
    ((∀ r ∈ rs, r.2.op = 13) → applyAll tick salt 13 old rs = (rs.map lo).foldl (fun x y => x ||| y) old) ∧
    (∀ (pa a : Nat) (op : BitVec 6) (before after : List (BitVec 12 × DefRec)) (r : BitVec 12 × DefRec),
      let mine (x : BitVec 12 × DefRec) : Prop := x.2.op = op ∧ recPa x.2 = a
      (op = 19 ∧ a = pa / 8 * 8) ∨ (op = 18 ∧ a = pa ∧ ∀ x ∈ rs, ¬ (x.2.op = 19 ∧ recPa x.2 = pa / 8 * 8)) →
      rs = before ++ r :: after → mine r → (∀ x ∈ before, mine x → x.1.toNat ≤ r.1.toNat) → (∀ x ∈ after, mine x → x.1.toNat < r.1.toNat) →
        overwriteWord pa old rs = if op = 19 ∧ pa % 8 ≠ 0 then r.2.hi.toNat else lo r) ∧
    (∀ pa, (∀ x ∈ rs, x.2.op ≠ 18 ∧ x.2.op ≠ 19) → overwriteWord pa old rs = old) ∧
    (∀ pa x y, x.2.op = 18 → y.2.op = 0 → recPa x.2 = pa → recPa y.2 = pa → rs = [x, y] ∨ rs = [y, x] →
      applyUnit tick pa 4 old rs = (lo x + lo y) % 2 ^ 32) ∧
    (∀ x y, (fmtF32.read x).isNan = true ∨ (fmtF32.read y).isNan = true →
      applyOp 8 x y = 0x7FC00000 ∧ applyOp 11 x y = 0x7FC00000)

/-- The exact additions of a commit do not depend on the order of its records (R68). -/
def Obligations.ExactSumsOrderless : Prop :=
  ∀ (tick tick' salt salt' old : Nat) (rs rs' : List (BitVec 12 × DefRec)), rs.Perm rs' →
    applyAll tick salt 3 old rs = applyAll tick' salt' 3 old rs' ∧ applyAll tick salt 5 old rs = applyAll tick' salt' 5 old rs'

/-- The cataloguer and the conservators (R334 to R341): at a core's turn a visit takes the tagged records of its log into bins, and the
next core of the gallery has the next turn; a bin reaches its conservator in the order of its source; and a close message applies one
unit of the records of its commit, with nothing else in memory changed, and then acknowledges. -/
def Clause.CataloguerAndConservators : Prop :=
  (∀ (s : State) (core : Nat), (∀ x ∈ (s.cat (galleryOf core)).bins, x.2.length < 128) →
    let g := galleryOf core
    let c : Cataloguer := { s.cat g with turn := (core % 8 + 1) % 8 }
    ((s.cat g).turn ≠ core % 8 → exec (.cataloguerTake core) s = .next s) ∧
    (∀ (b : Block) (r : LogRec), (s.cat g).turn = core % 8 → s.block core = some b → b.log = [r] → r.tagged = true →
      (enterBin (c.bin r.bin) r.rcd).length < 128 →
        exec (.cataloguerTake core) s = .next (((s.setCat c).setCat (c.setBin r.bin (enterBin (c.bin r.bin) r.rcd))).setBlock core
          { b with log := [] }))) ∧
  (∀ (s : State) (k : Nat) (b : ChannelBin), s.travelling[k]? = some b →
    (∀ x ∈ s.travelling.take k, ¬ (x.channel = b.channel ∧ x.bin.source = b.bin.source)) →
    (s.parked.filter (fun x => x.channel == b.channel)).length < 4096 →
      exec (.binPark k) s = .next { s with travelling := s.travelling.eraseIdx k, parked := s.parked ++ [b] }) ∧
  (∀ (s : State) (b : ShippedBin), b.source.extractLsb' 6 6 ≠ s.deviceNo → ∃ bins : List ChannelBin,
    exec (.remoteBinForward (.outside b)) s = .next { s with travelling := s.travelling ++ bins } ∧
      ∀ x ∈ bins, x.bin.source = b.source ∧ ∀ r ∈ x.bin.recs, channelOf (recPa r) = x.channel ∧ physRegion (recPa r) = .dram) ∧
  (∀ (s : State) (k : Nat) (m : CloseMsg), s.closes[k]? = some m →
    let group := s.closeGroup m
    let mine (r : DefRec) (src : BitVec 12) : Bool := group.contains { source := src, tag := r.tag }
    (∀ x ∈ s.travelling, x.channel = m.dest → ∀ r ∈ x.bin.recs, mine r x.bin.source = false) →
      (s.parkedOf m.dest group = [] → ∃ s', exec (.closeT (.queued k)) s = .next s' ∧ SameMemory s s' ∧
        (group.contains { source := m.source, tag := m.tag } = true →
          m ∉ s'.closes ∧ ((s.galleryOfSource m.source).isSome = true → m ∈ s'.acks))) ∧
      (∀ src r, s.parkedOf m.dest group = [(src, r)] → s.rangeHeld (recPa r) 4 = true → exec (.closeT (.queued k)) s = .next s) ∧
      (∀ src r, s.parkedOf m.dest group = [(src, r)] → s.bad = [] → s.rangeHeld (recPa r) 4 = false → r.op = 0 →
        ∃ s', exec (.closeT (.queued k)) s = .next s' ∧ (HomeAgrees s → SameMemoryBut (recPa r) 4 s s') ∧
          (MemoryWf s → leNat (Cells.getMany s'.mem (recPa r) 4) = (leNat (Cells.getMany s.mem (recPa r) 4) + r.lo.toNat) % 2 ^ 32)))

/-- Commits end (R291, R292, R340, R341): an acknowledgement that is awaited is awaited no longer, and the cataloguer's last is a sample of
its monitors (R427); remote ones are given up after 2 ms
with status bit 1, the wait for a tag after 1 ms with status bit 2; a tag held after a timeout is free again after 100 ms; and a free
tag goes to the block that has been without one longest. -/
def Clause.CommitsEnd : Prop :=
  (∀ (s : State) (k : Nat) (m : CloseMsg), s.acks[k]? = some m →
    let s1 := State.mapCommits { s with acks := s.acks.eraseIdx k } (fun c => { c with awaited := c.awaited.filter (fun x => x != m) })
    ∃ s', exec (.commitAck (.queued k)) s = .next s' ∧ (s' = s1 ∨ ∃ g since, s' = s1.sample g 3 since) ∧
      ((∀ c ∈ s.allCommits, m ∉ c.awaited) → s' = s1)) ∧
  (∀ (s : State) (core : Nat) (b : Block) (c : Commit), s.block core = some b → b.commit = some c →
    (c.sentSince.toNat + 2000 * 2250 ≤ s.clock.toNat → (∃ m ∈ c.awaited, 256 ≤ m.dest) →
      exec (.commitRemoteTimeout (.block core)) s = .next (s.setBlock core { b with commit := some { c with
        awaited := c.awaited.filter (fun m => m.dest < 256), status := c.status ||| 2 } })) ∧
    (c.wantTag = true → c.tagSince.toNat + 1000 * 2250 ≤ s.clock.toNat →
      exec (.tagWaitTimeout core) s = .next (s.setBlock core { b with commit := some { c with wantTag := false, status := c.status ||| 4 } }))) ∧
  (∀ (s : State) (g : Nat) (tag : BitVec 12) (since : Word64), (s.cat g).timedOut = [(tag, since)] →
    since.toNat + 100000 * 2250 ≤ s.clock.toNat →
      exec (.tagHoldExpiry g tag) s = .next (s.setCat { s.cat g with timedOut := [] })) ∧
  (∀ (s : State) (g core : Nat) (rest : List Nat) (tag : BitVec 12) (b : Block), (s.cat g).waiting = core :: rest →
    s.freeTag g = some tag → s.block core = some b → b.commit = none →
      exec (.tagGrant g) s = .next (((s.setCat { s.cat g with waiting := rest }).holdTag g tag).setBlock core
        (b.receiveTag { source := s.sourceOf g, tag := tag })) ∧
      tag ∉ (s.cat g).held ∧ (b.receiveTag { source := s.sourceOf g, tag := tag }).tag = some { source := s.sourceOf g, tag := tag })

/-- The cataloguer, the conservators and the end of commits (R291, R292, R334 to R341). -/
def Obligations.DeferredDelivery : Prop := Clause.CataloguerAndConservators ∧ Clause.CommitsEnd

/-! ### Tiles -/

/-- The handle checks common to the tile instructions (R299): a number outside the block's handles, a free or freed one, one of another
warp and one handed over raise class 0x04, in this order, and the instruction goes on only when none applies. -/
def Clause.HandleChecks : Prop :=
  ∀ (t : View) (hs own : List Nat),
    let e (h : Nat) : HandleEntry := t.blk.handles.getD h .zero
    ((∃ h ∈ hs, t.blk.launch.tiles ≤ h) → t.checkHandles hs own = .error (flt 0x04 0x0A)) ∧
    ((∀ h ∈ hs, h < t.blk.launch.tiles) →
      ((∃ h ∈ hs, (e h).st = .free ∨ (e h).st = .freed) → t.checkHandles hs own = .error (flt 0x04 0x01)) ∧
      ((∀ h ∈ hs, (e h).st = .owned ∨ (e h).st = .handed) →
        (∀ h r, own = h :: r → (e h).own ≠ t.w.num → t.checkHandles hs own = .error (flt 0x04 0x02)) ∧
        (∀ h r, own = h :: r → (e h).own = t.w.num → (e h).st = .handed → t.checkHandles hs own = .error (flt 0x04 0x03)) ∧
        ((∀ h ∈ own, (e h).own = t.w.num ∧ (e h).st = .owned) → t.checkHandles hs own = .ok ())))

/-- TALLOC, TFREE, THAND, TTAKE, TLDW and TSWAP (R300 to R303, R308 to R310). A TALLOC of a handle that another warp has freed and has not
confirmed waits, and so does a TTAKE of one that its owner has not handed over; such a wait ends for good when the handle is owned
again, or freed (R301, R303). -/
def Clause.HandlesAndPlanes : Prop :=
  (∀ (f : FormF) (s : State) (t : View),
    let h := f.hd.toNat
    let e := t.blk.handles.getD h .zero
    let a := t.blk.array
    let ea := t.blk.handles.getD f.ha.toNat .zero
    let calm : Prop := ∀ c d, t.w.wait ≠ some (.failed c d)
    (Runs (.talloc f) s t →
      (t.blk.launch.tiles ≤ h → Raises (.talloc f) s t (flt 0x04 0x0A)) ∧
      (∀ c d, h < t.blk.launch.tiles → t.w.wait = some (.failed c d) → Stops (.talloc f) s t (flt c d)) ∧
      (h < t.blk.launch.tiles → calm → e.st = .owned ∨ e.st = .handed → Raises (.talloc f) s t (flt 0x04 0x0C)) ∧
      (h < t.blk.launch.tiles → calm → e.st = .freed → e.own ≠ t.w.num →
        exec (.talloc f) s = .next ((t.setW { t.w with wait := some (.alloc h) }).stalled (.long 201)).close) ∧
      (h < t.blk.launch.tiles → calm → e.st = .free ∨ (e.st = .freed ∧ e.own = t.w.num) →
        Completes (.talloc f) s { t.taken (.talloc f) with blk := { t.blk with handles := t.blk.handles.set h { HandleEntry.zero with
          own := t.w.num, st := .owned, fmt := f.ha.extractLsb' 0 4, acc := f.hb.getLsbD 3, rb := f.hb.toNat % 8 } } })) ∧
    (Runs (.tfree f) s t →
      (∀ x, t.checkHandles [h] [h] = .error x → Stops (.tfree f) s t x) ∧
      (t.checkHandles [h] [h] = .ok () → ∃ t' : View, Completes (.tfree f) s t' ∧ t'.w = (t.taken (.tfree f)).w ∧
        t'.blk.handles = t.blk.handles.set h { t.w.supersede h e with st := .freed, v := false } ∧ SameMemory s t'.retire.close)) ∧
    (Runs (.tldw f) s t →
      let ta := f.mods.getLsbD 4
      let plane : Plane :=
        { valid := true, fmt := ea.fmt, rxw := ea.rx, t := ta, src := f.ha.toNat, stale := false, k := ea.k, fromSlot := ea.slot,
          saved := false, img := Cells.ofList 0 (t.blk.tileRows ea).flatten }
      (∀ x, t.checkHandles [f.ha.toNat] [f.ha.toNat] = .error x → Stops (.tldw f) s t x) ∧
      (t.checkHandles [f.ha.toNat] [f.ha.toNat] = .ok () →
        (ea.acc = true → Raises (.tldw f) s t (flt 0x04 0x05)) ∧
        (ea.acc = false → ea.k ≠ 64 → ea.k ≠ 128 → Raises (.tldw f) s t (flt 0x04 0x04)) ∧
        (ea.acc = false → ea.k = 64 ∨ ea.k = 128 → ta = true → ea.is16 = false → Raises (.tldw f) s t (flt 0x04 0x06)) ∧
        (ea.acc = false → ea.k = 64 ∨ ea.k = 128 → ta = false ∨ ea.is16 = true → a.ownv = true → a.ownw ≠ t.w.num →
          Raises (.tldw f) s t (flt 0x04 0x08)) ∧
        (ea.acc = false → ea.k = 64 ∨ ea.k = 128 → ta = false ∨ ea.is16 = true → a.ownv = false ∨ a.ownw = t.w.num →
          ∃ t' : View, Completes (.tldw f) s t' ∧ t'.w = { (t.taken (.tldw f)).w with ckpt := t'.w.ckpt } ∧ SameMemory s t'.retire.close ∧
            t'.blk = { t.blk with array := { a.setShadow plane with ownv := true, ownw := t.w.num }, warps := t'.blk.warps } ∧
            (a.ownv = true → t'.w.ckpt = t.w.ckpt ∧ t'.blk.warps = t.blk.warps)))) ∧
    (Runs (.tswap f) s t →
      (a.ownv = true → a.ownw ≠ t.w.num → Raises (.tswap f) s t (flt 0x04 0x08)) ∧
      (a.ownv = false ∨ a.ownw = t.w.num → a.shadow.valid = false → Raises (.tswap f) s t (flt 0x04 0x07)) ∧
      (a.ownv = false ∨ a.ownw = t.w.num → a.shadow.valid = true → t.chainDue = true → Waits (.tswap f) s t) ∧
      (a.ownv = false ∨ a.ownw = t.w.num → a.shadow.valid = true → t.chainDue = false →
        ∃ t' : View, Completes (.tswap f) s t' ∧ t'.w = { (t.taken (.tswap f)).w with ckpt := t'.w.ckpt } ∧ t'.dev = s ∧
          t'.blk = { t.blk with
            array := { a with act := !a.act, ownv := !f.mods.getLsbD 0, ownw := (if f.mods.getLsbD 0 then 0 else t.w.num) }
            warps := t'.blk.warps } ∧
          (a.ownv = true → t'.w.ckpt = t.w.ckpt ∧ t'.blk.warps = t.blk.warps)))) ∧
  (∀ (f : FormH) (s : State) (t : View),
    let h := (f.fn.extractLsb' 0 5).toNat
    let e := t.blk.handles.getD h .zero
    let n := (t.w.rs f.sa).toNat
    let calm : Prop := ∀ c d, t.w.wait ≠ some (.failed c d)
    let held : Prop := exec (.ttake f) s = .next ((t.setW { t.w with wait := some (.take h) }).stalled (.long 201)).close
    let entered (t' : View) (x : HandleEntry) : Prop :=
      (t'.blk.handles.getD h .zero) = { x with rslot := 0, rv := false } ∧ t'.w.ckpt.resume = t.nextHeader ∧ t'.w.v = t.w.v ∧
        t'.w.s = t.w.s ∧ t'.w.p = t.w.p ∧ (∀ k, k ≠ h → (t.blk.handles.getD k .zero).own ≠ t.w.num →
          t'.blk.handles.getD k .zero = t.blk.handles.getD k .zero) ∧ SameMemory s t'.retire.close
    (Runs (.thand f) s t →
      (∀ x, t.checkHandles [h] [h] = .error x → Stops (.thand f) s t x) ∧
      (t.checkHandles [h] [h] = .ok () →
        (t.blk.launch.nwarps ≤ n ∨ n = t.w.num → Raises (.thand f) s t (flt 0x04 0x0B)) ∧
        (n < t.blk.launch.nwarps → n ≠ t.w.num → t.mayPass = false → Waits (.thand f) s t) ∧
        (n < t.blk.launch.nwarps → n ≠ t.w.num → t.passesFreely →
          ∃ t' : View, Completes (.thand f) s t' ∧ entered t' { e with st := .handed, tgt := n }))) ∧
    (Runs (.ttake f) s t →
      (t.blk.launch.tiles ≤ h → Raises (.ttake f) s t (flt 0x04 0x0A)) ∧
      (∀ c d, h < t.blk.launch.tiles → t.w.wait = some (.failed c d) → Stops (.ttake f) s t (flt c d)) ∧
      (h < t.blk.launch.tiles → calm → e.st = .free ∨ e.st = .freed → Raises (.ttake f) s t (flt 0x04 0x01)) ∧
      (h < t.blk.launch.tiles → t.w.wait = none → e.st = .handed → e.tgt ≠ t.w.num → e.own ≠ t.w.num →
        Raises (.ttake f) s t (flt 0x04 0x0B)) ∧
      (h < t.blk.launch.tiles → calm → t.w.wait ≠ none → e.st = .handed → e.tgt ≠ t.w.num → e.own ≠ t.w.num → held) ∧
      (h < t.blk.launch.tiles → calm → e.st = .owned → e.own ≠ t.w.num → held) ∧
      (h < t.blk.launch.tiles → calm → (e.st = .handed ∧ (e.tgt = t.w.num ∨ e.own = t.w.num)) ∨ (e.st = .owned ∧ e.own = t.w.num) →
        (t.mayPass = false → Waits (.ttake f) s t) ∧
        (t.passesFreely → ∃ t' : View, Completes (.ttake f) s t' ∧ entered t' { e with own := t.w.num, st := .owned, tgt := 0 })))) ∧
  (∀ (b : Block) (w : Warp) (h : Nat),
    let e := b.handles.getD h .zero
    (w.wait = some (.take h) → e.st = .free ∨ e.st = .freed → b.watch w = { w with wait := some (.failed 0x04 0x01) }) ∧
    (w.wait = some (.alloc h) → e.st = .owned ∨ e.st = .handed → b.watch w = { w with wait := some (.failed 0x04 0x0C) }))

/-- The handle checks and the instructions on handles and planes (R299 to R303, R308 to R310). -/
def Obligations.TileHandles : Prop := Clause.HandleChecks ∧ Clause.HandlesAndPlanes

/-- A new version of a tile (R219, R220, R304, R305): it takes a free slot, or a free aligned pair for an accumulator, and class 0x05
detail 0x01 is raised when there is none; the instruction is under way, and the warp goes on; rows that the instruction does not update
are copied; when it completes the slot's bytes become the new image and no other byte of the tile memory changes. A part of a TLD reads
its bytes of memory into the image (R306). -/
def Obligations.TileVersions : Prop :=
  (∀ (t : View) (i : Instr) (h : Nat) (fmt : BitVec 4) (acc : Bool) (rb : Nat) (rows : List (List Byte)) (copies dfr : Bool)
      (todo : List TilePiece), t.dev.bad = [] →
    let b := t.blk.setWarp t.w
    let r := t.newVersion i h fmt acc rb rows copies todo dfr
    (b.findSlot acc = none → r = .fault (flt 0x05 0x01)) ∧
    (∀ k, b.findSlot acc = some k →
      k < 128 ∧ b.slotFree k = true ∧ (acc = true → k % 2 = 0 ∧ b.slotFree (k + 1) = true) ∧
      ∃ (t' : View) (o : Op), r = .ok t' ∧ t'.dev = t.dev ∧ t'.core = t.core ∧ t'.cl = t.cl ∧
        t'.blk.handles = t.blk.handles.set h { t.w.supersede h (t.blk.handles.getD h .zero) with
          slot := k, v := true, fmt := fmt, acc := acc, rb := rb } ∧
        t'.w = { t.w with seq := t.w.seq + 1, ops := t.w.ops ++ [o], ckpt := t'.w.ckpt } ∧ o.seq = t.w.seq ∧ o.instr = i ∧
        o.body = .tile k acc (Cells.ofList 0 rows.flatten) todo dfr)) ∧
  (∀ (t : View) (i : Instr) (h : Nat) (f : Nat → List Byte → List Byte),
    let e := t.blk.handles.getD h .zero
    let upd (i : Nat) : Bool := t.eff.getLsbD (i / 2)
    t.writeRows i h f = t.newVersion i h e.fmt e.acc e.rb
      (((List.range 64).zip (t.blk.tileRows e)).map (fun x => if upd x.1 then f x.1 x.2 else x.2)) true [] false) ∧
  (∀ (s : State) (core warp : Nat) (t : View) (o : Op) (k : Nat) (acc dfr : Bool) (img : Cells 8),
    s.viewOf core warp = some t → t.w.ops = [o] → o.body = .tile k acc img [] dfr → Cells.wf t.blk.slots = true → Cells.wf img = true →
      let n := if acc then 16384 else 8192
      ∃ t' : View, exec (.tileComplete core warp) s = .next t'.close ∧ t'.w = { t.w with ops := [] } ∧ t'.dev = t.dev ∧
        (∀ x, x < n → Cells.get t'.blk.slots (8192 * k + x) = Cells.get img x) ∧
        (∀ x, x < 8192 * k ∨ 8192 * k + n ≤ x → Cells.get t'.blk.slots x = Cells.get t.blk.slots x)) ∧
  (∀ (s : State) (core seq pa : Nat) (v : Via) (w : Warp) (take : Nat → Bool) (p : TilePiece) (img : Cells 8), p.loc = .mem v pa → take 0 = true →
    s.accessHeld core w seq (.mem v pa) p.size = false → s.bad = [] → HomeAgrees s →
      readPieces core w seq take [p] 0 [] img s =
        (s.visit false (.mem v pa) p.size, putPiece img p (Cells.getMany s.mem pa p.size), []))

/-- TZERO, TTRANS, TADD, TMUL, TSCALE, TRED, TABSMAX and TSETROW write the rows of E of their destination (R304, R307, R315, R316,
R319), after the checks of R299; TGETROW reads words of eight rows (R307). -/
def Obligations.TileElementwise : Prop :=
  (∀ (f : FormF) (s : State) (t : View) (u : Unit),
    let r (i : Instr) (g : Nat → List Byte → List Byte) : Res := (t.taken i).writeRows i f.hd.toNat g
    let rf (i : Instr) (g : Nat → List (Flagged Nat)) : Res := (t.taken i).writeElems i f.hd.toNat (flagIV ||| flagOF) g
    let h := f.hd.toNat
    let ed := t.blk.handles.getD h .zero
    let ea := t.blk.handles.getD f.ha.toNat .zero
    let eb := t.blk.handles.getD f.hb.toNat .zero
    let own := t.checkHandles [h] [h]
    let arith (mul : Bool) : Nat → Nat → Flagged Nat := tileArith mul ed.fmt
    let reduces : Prop := t.checkHandles [h, f.ha.toNat] [h, f.ha.toNat] = .ok u ∧ ea.isInt = false ∧ ed.fmt = 0 ∧ ed.acc = true
    let pairs (mul : Bool) (i : Nat) : List (Flagged Nat) :=
      (((t.blk.tileRaw ea (f.mods.getLsbD 4)).getD i []).zip ((t.blk.tileRaw eb (f.mods.getLsbD 3)).getD i [])).map
        (fun p => arith mul p.1 p.2)
    (Runs (.tzero f) s t → (∀ x, own = .error x → Stops (.tzero f) s t x) ∧
      (own = .ok u → EndsTile (.tzero f) s t ed.acc (r (.tzero f) (fun _ bs => List.replicate bs.length 0)))) ∧
    (Runs (.ttrans f) s t → (∀ x, t.ttransPre f = .error x → Stops (.ttrans f) s t x) ∧
      (t.ttransPre f = .ok u → EndsTile (.ttrans f) s t ed.acc (r (.ttrans f) (fun i _ =>
        packRow ed.fmt 128 ((t.blk.tileRaw ea false).map (fun r => r.getD i 0)))))) ∧
    (Runs (.tadd f) s t → (∀ x, t.binaryPre f = .error x → Stops (.tadd f) s t x) ∧
      (t.binaryPre f = .ok u → EndsTile (.tadd f) s t ed.acc (rf (.tadd f) (pairs false)))) ∧
    (Runs (.tmul f) s t → (∀ x, t.binaryPre f = .error x → Stops (.tmul f) s t x) ∧
      (t.binaryPre f = .ok u → EndsTile (.tmul f) s t ed.acc (rf (.tmul f) (pairs true)))) ∧
    (Runs (.tscale f) s t → (∀ x, t.scalePre f = .error x → Stops (.tscale f) s t x) ∧
      (t.scalePre f = .ok u → f.mods = 2 →
        Completes (.tscale f) s { t.taken (.tscale f) with blk := { t.blk with handles := t.blk.handles.set h { ed with rx := f.hb.toInt } } }) ∧
      (t.scalePre f = .ok u → f.mods.getLsbD 4 = true → EndsAs (.tscale f) s t ((t.taken (.tscale f)).scaleP2 f) ∧
        (ea.fmt.toNat ≤ 5 → EndsTile (.tscale f) s t ed.acc ((t.taken (.tscale f)).scaleP2 f))) ∧
      (t.scalePre f = .ok u → f.mods = 0 → EndsTile (.tscale f) s t ed.acc ((t.taken (.tscale f)).scaleBy f false)) ∧
      (t.scalePre f = .ok u → f.mods = 1 → EndsTile (.tscale f) s t ed.acc ((t.taken (.tscale f)).scaleBy f true))) ∧
    (Runs (.tred f) s t →
      let r := (t.taken (.tred f)).reduceTile (.tred f) f (f.mods.getLsbD 4) false (fun xs =>
        if f.mods.extractLsb' 0 2 = 0 then roundSum (sumTerms (xs.map (fun x => (x, false)))) else reduceMax (f.mods.getLsbD 0) xs)
      EndsAs (.tred f) s t r ∧ (reduces → f.mods.getLsbD 4 = false ∨ ea.is16 = true → EndsTile (.tred f) s t true r)) ∧
    (Runs (.tabsmax f) s t →
      let r := (t.taken (.tabsmax f)).reduceTile (.tabsmax f) f false true absMax
      EndsAs (.tabsmax f) s t r ∧ (reduces → EndsTile (.tabsmax f) s t true r))) ∧
  (∀ fmt x y, (fmt = 10 → tileArith false fmt x y = { val := (x + y) % 2 ^ 32, fp := 0, sat := false } ∧
      tileArith true fmt x y = { val := x * y % 2 ^ 32, fp := 0, sat := false }) ∧
    (fmt = 0 → tileArith false fmt x y = fmtF32.addBits x y ∧ tileArith true fmt x y = fmtF32.mulBits x y) ∧
    (fmt = 1 → tileArith false fmt x y = fmtF16.addBits x y ∧ tileArith true fmt x y = fmtF16.mulBits x y)) ∧
  (∀ (f : FormH) (s : State) (t : View) (u : Unit),
    let h := (f.fn.extractLsb' 0 5).toNat
    let e := t.blk.handles.getD h .zero
    let q := (t.w.rs f.sa).toNat
    let d := 8 * (f.fn.extractLsb' 5 4).toNat
    let groups := if e.acc then 16 else 8
    let place (m l : Nat) : Nat × Nat := if e.acc then (4 * q + m / 2, l + 32 * (m % 2)) else (8 * q + m, l)
    let limit := if e.fmt = 5 then 96 else e.rowBytes
    let word (m l : Nat) : Word32 :=
      if limit < 4 * (place m l).2 + 4 then 0
      else BitVec.ofNat 32 (leNat ((((t.blk.tileRows e).getD (place m l).1 []).drop (4 * (place m l).2)).take 4))
    (Runs (.tgetrow f) s t →
      (∀ x, t.checkHandles [h] [h] = .error x → Stops (.tgetrow f) s t x) ∧
      (t.checkHandles [h] [h] = .ok u → groups ≤ q → Raises (.tgetrow f) s t (flt 0x04 0x0D)) ∧
      (t.checkHandles [h] [h] = .ok u → q < groups →
        Completes (.tgetrow f) s (t.setW ((List.range 8).foldl (fun w m => w.wvEach (d + m) (word m) t.effLanes) (t.taken (.tgetrow f)).w)))) ∧
    (Runs (.tsetrow f) s t →
      (∀ x, t.checkHandles [h] [h] = .error x → Stops (.tsetrow f) s t x) ∧
      (t.checkHandles [h] [h] = .ok u → groups ≤ q → Raises (.tsetrow f) s t (flt 0x04 0x0D)) ∧
      (t.checkHandles [h] [h] = .ok u → q < groups →
        EndsTile (.tsetrow f) s t e.acc ((t.taken (.tsetrow f)).newVersion (.tsetrow f) h e.fmt e.acc e.rb ((List.range 8).foldl (fun rs m => t.effLanes.foldl (fun rs l =>
          if limit < 4 * (place m l).2 + 4 then rs
          else rs.modify (place m l).1 (fun r => r.take (4 * (place m l).2) ++ leBytes 4 (t.w.rv (d + m) l).toNat ++
            r.drop (4 * (place m l).2 + 4))) rs) (t.blk.tileRows e)) true [] false))))

/-- TMMA (R64 to R66, R299, R311, R312): after its checks every element of the updated rows takes the slice's exact products, added to
it and rounded once a step; integers are added exactly and saturate once. It waits while the limiter withholds the array. A TMMAC begins
a chain through the ranks of a gang; in each of its steps the plane that is active at a rank is applied to the rank's activation tile,
and its rounded slice value is added to the accumulator and the sum rounded, or integers are added and saturate; after the step of rank
0 the accumulator is written (R67, R313). That a slice value begins from no accumulator, that the steps of a chain follow one at a time after the TMMAC has issued, and
that an integer chain saturates at each rank, is the model's reading (log entry 42). -/
def Obligations.MatrixSteps : Prop :=
  (∀ (f : FormF) (s : State) (t : View) (u : Unit), Runs (.tmma f) s t →
    let p := t.blk.array.active
    let ed := t.blk.handles.getD f.hd.toNat .zero
    let ea := t.blk.handles.getD f.ha.toNat .zero
    let ta := f.mods.getLsbD 4
    let old := t.blk.tileRaw ed false
    let loaded : Prop := p.valid = true ∧ f.hb.toNat = p.src ∧ p.stale = false ∧ f.mods.getLsbD 3 = p.t
    let pair := t.blk.pairMode f
    let es := if pair then [ea, t.blk.handles.getD (f.ha.toNat + 1) .zero] else [ea]
    (∀ x, t.tmmaPre f = .error x → Stops (.tmma f) s t x) ∧
    (t.tmmaPre f = .ok u → ¬ loaded → Raises (.tmma f) s t (flt 0x04 0x07)) ∧
    (t.tmmaPre f = .ok u → loaded → s.arrayWithheld t.core = true → Waits (.tmma f) s t) ∧
    (∀ S pr, t.tmmaPre f = .ok u → loaded → s.arrayWithheld t.core = false → stepPlan ea.fmt p.fmt ea.k p.k = some (S, pr) →
      let counted : View := { t.taken (.tmma f) with blk := t.blk.countSteps S }
      (intFmt ea.fmt = true → EndsTile (.tmma f) s t true (counted.writeElems (.tmma f) f.hd.toNat (flagIV ||| flagOF) (fun i =>
        ((old.getD i []).zip p.intColumns).map (fun q =>
          elementInts ea.fmt p.fmt S pair (es.map (fun e => (t.blk.tileRaw e ta).getD i [])) q.2 q.1)))) ∧
      (intFmt ea.fmt = false → EndsTile (.tmma f) s t true (counted.writeElems (.tmma f) f.hd.toNat (flagIV ||| flagOF) (fun i =>
        ((old.getD i []).zip p.columns).map (fun q =>
          elementSteps ea.fmt p.fmt (es.map HandleEntry.rx) p.rxw S pair (es.map (fun e => (t.blk.tileVals e ta).getD i [])) q.2 (some q.1))))))) ∧
  (∀ (fa fw : BitVec 4) (row col : List Nat) (acc : Nat),
    let y := (BitVec.ofNat 32 acc).toInt + ((row.zip col).map (fun p => intOf fa p.1 * intOf fw p.2)).sum
    (elementInts fa fw 1 false [row] col acc).val = (BitVec.ofInt 32 (max (-2 ^ 31) (min (2 ^ 31 - 1) y))).toNat ∧
    (elementInts fa fw 1 false [row] col acc).sat = decide (y < -2 ^ 31 ∨ 2 ^ 31 ≤ y)) ∧
  (elementSteps 1 2 [0] 0 1 false [[.fin false 1 (-12), .fin false 1 (-25)]] [.fin false 1 (-12), .fin false 1 (-24)] (some 0x3F800000)).val =
    0x3F800000 ∧
  (∀ (f : FormF) (s : State) (t : View), Runs (.tmmac f) s t →
    (32 < f.ha.toNat + (f.hb.toNat % 8 + 1) → Raises (.tmmac f) s t (flt 0x04 0x0A)) ∧
    (∀ arrs : List (Nat × ArrayRec),
      let c := f.hb.toNat % 8 + 1
      let sf := streamFmt (f.mods.extractLsb' 0 3)
      let planes := arrs.map (fun x => x.2.active)
      let ed := t.blk.handles.getD f.hd.toNat .zero
      let hs := (List.range c).map (fun r => f.ha.toNat + r)
      let es := hs.map (fun h => t.blk.handles.getD h .zero)
      let ea := t.blk.handles.getD f.ha.toNat .zero
      f.ha.toNat + c ≤ 32 → t.checkHandles (f.hd.toNat :: hs) (f.hd.toNat :: hs) = .ok () →
      (List.range c).map t.rankArray = arrs.map some → t.blk.launch.rank = 0 → c ≤ t.blk.launch.gsize →
      (∀ e ∈ es, e.fmt = sf ∧ e.acc = false ∧ sameShape e ea = true ∧ (f.mods.getLsbD 4 = true → e.is16 = true)) → ed.acc = true →
      (∀ p ∈ planes, p.valid = true ∧ accFmt sf p.fmt = some ed.fmt ∧ p.k = ea.k) →
        (s.arrayWithheld t.core = true → Waits (.tmmac f) s t) ∧
        (s.arrayWithheld t.core = false →
          ((t.blk.setWarp t.w).findSlot ed.acc = none → Raises (.tmmac f) s t (flt 0x05 0x01)) ∧
          (∀ k, (t.blk.setWarp t.w).findSlot ed.acc = some k → ∃ (t' : View) (o : Op), Completes (.tmmac f) s t' ∧
            t'.w.ops = t.w.ops ++ [o] ∧ o.instr = .tmmac f ∧ o.seq = t.w.seq ∧ o.pc = t.pc ∧
            o.body = .chain k c ((rowsE t).map (fun i => (i, (t.blk.tileRaw ed false).getD i []))) (Cells.ofList 0 (t.blk.tileRows ed).flatten)
              0 false ∧ SameMemory s t'.retire.close)))) ∧
  (∀ (f : FormF) (s : State) (core warp : Nat) (t : View) (o : Op) (slot : Nat) (rows : List (Nat × List Nat)) (img : Cells 8)
      (fl : Word32) (sat : Bool), s.viewOf core warp = some t → t.w.ops = [o] → o.instr = .tmmac f →
    let sf := streamFmt (f.mods.extractLsb' 0 3)
    let ta := f.mods.getLsbD 4
    let ed := t.blk.handles.getD f.hd.toNat .zero
    (∀ r x, o.body = .chain slot (r + 1) rows img fl sat → t.rankArray r = some x → s.arrayWithheld x.1 = true →
      exec (.tileComplete core warp) s = .next t.close) ∧
    (∀ r x, o.body = .chain slot (r + 1) rows img fl sat → t.rankArray r = some x → s.arrayWithheld x.1 = false → s.bad = [] →
      let p := x.2.active
      let ea := t.blk.handles.getD (f.ha.toNat + r) .zero
      let new (i j acc : Nat) : Flagged Nat :=
        if intFmt sf = true then satAdd acc (intSlice sf p.fmt ((t.blk.tileRaw ea ta).getD i []) (p.intColumns.getD j []))
        else
          let v := elementSteps sf p.fmt [ea.rx] p.rxw 1 false [(t.blk.tileVals ea ta).getD i []] (p.columns.getD j []) none
          let sum := roundSum (sumTerms [(fmtF32.read acc, false), (fmtF32.read v.val, false)])
          { sum with fp := v.fp ||| sum.fp }
      let xs := rows.map (fun y => (y.1, ((List.range 64).zip y.2).map (fun z => new y.1 z.1 z.2)))
      p.valid = true → p.k = ea.k → accFmt sf p.fmt = some ed.fmt →
        exec (.tileComplete core warp) s = .next (t.setW { t.w with ops := [{ o with
          body := .chain slot r (xs.map (fun y => (y.1, y.2.map Flagged.val))) img ((xs.map (fun y => flagsOf y.2)).foldl (· ||| ·) fl)
            (sat || xs.any (fun y => satOf y.2)) }] }).close) ∧
    (o.body = .chain slot 0 rows img fl sat → Cells.wf t.blk.slots = true → Cells.wf img = true →
      let m := rows.foldl (fun m y => Cells.setMany m (256 * y.1) (y.2.flatMap (leBytes 4))) img
      ∃ t' : View, exec (.tileComplete core warp) s = .next t'.close ∧ t'.dev = t.dev ∧
        t'.w = { t.w.addFlags (fl &&& (flagIV ||| flagOF)) sat with ops := [] } ∧
        (∀ x, x < 16384 → Cells.get t'.blk.slots (8192 * slot + x) = Cells.get m x) ∧
        (∀ x, x < 8192 * slot ∨ 8192 * slot + 16384 ≤ x → Cells.get t'.blk.slots x = Cells.get t.blk.slots x)))

/-- TLD and TST move the rows of E between a tile and memory or the scratchpad (R306); TCVT and TQUANT convert under a tensor
parameter record (R60, R317, R318); TDRAIN captures each row of E as the packet of a NETST or as a contribution, at most four drains of a
core at a time (R320, R376). The pieces of a row, their offsets modulo 2^32 and the checks of all 64 rows of a transposed move are log
entry 39, the shapes that TCVT refuses log entry 41, what counts as a drain, a page outside the aperture and the alignment of s(sd)
checked before the record log entry 43, and the packets of a row cut by a page or a chunk log entry 73: these are the model's. -/
def Obligations.TileMoves : Prop :=
  ∀ (f : FormH) (s : State) (t : View) (u : Unit),
    let h := (f.fn.extractLsb' 0 5).toNat
    let e := t.blk.handles.getD h .zero
    let tr := f.fn.getLsbD 5
    let own := t.checkHandles [h] [h]
    let busy : Prop := ∃ p ∈ t.moveParts e tr, t.blk.offBusy (t.moveOff f p.2.1 + p.2.2.1 : Nat) = true
    let blank := ((List.range 64).zip (t.blk.tileRows e)).map
      (fun x => if t.eff.getLsbD (x.1 / 2) then List.replicate e.stride 0 else x.2)
    let stored (ps : List MovePart) : List (Loc × List Byte) := ps.map (fun p => (p.piece.loc, p.piece.offs.flatMap (fun o =>
      ((t.blk.tileRows e).flatten.drop o).take (p.piece.size / p.piece.offs.length))))
    let storesThen (ps : List MovePart) : Prop := ∃ (t' : View) (os : List StoreOp), Completes (.tst f) s t' ∧
      t'.w = { (t.taken (.tst f)).w with seq := t'.w.seq, buf := t.w.buf ++ os.map BufEntry.store } ∧ t'.blk = t.blk ∧
      os.map (fun o => (o.loc, o.bytes)) = stored ps ∧ (∀ o ∈ os, o.add = none) ∧ SameMemory s t'.retire.close
    (∀ i ∈ [Instr.tld f, .tst f], Runs i s t →
      (∀ x, own = .error x → Stops i s t x) ∧
      (own = .ok u → tr = true → e.is16 = false → Raises i s t (flt 0x04 0x06)) ∧
      (own = .ok u → tr = false ∨ e.is16 = true → f.fn.getLsbD 8 = false →
        (busy → Waits i s t) ∧
        (¬ busy → ∀ x, t.moveScratch f e tr = .error x → Stops i s t x))) ∧
    (Runs (.tld f) s t → own = .ok u → tr = false ∨ e.is16 = true →
      (∀ ps, f.fn.getLsbD 8 = false → ¬ busy → t.moveScratch f e tr = .ok ps → (∀ p ∈ ps, pteD p.pte = false) →
        EndsTile (.tld f) s t e.acc ((t.taken (.tld f)).newVersion (.tld f) h e.fmt e.acc e.rb blank true (ps.map MovePart.piece) false)) ∧
      (∀ x, f.fn.getLsbD 8 = true → t.moveGlobal f e tr .read = .error x → Stops (.tld f) s t { x with kind := 0 }) ∧
      (∀ n o ps, f.fn.getLsbD 8 = true → t.moveGlobal f e tr .read = .ok (n, o, ps) →
        let dfr := ps.any (fun p => pteD p.pte)
        (dfr = true → t.blk.commit.isSome = true → Waits (.tld f) s t) ∧
        (dfr = false ∨ t.blk.commit = none → ∃ t1 : View, t1.w = (t.taken (.tld f)).w ∧ t1.blk = t.blk ∧ t1.cl = t.cl ∧ SameMemory s t1.dev ∧
          EndsTile (.tld f) s t e.acc (t1.newVersion (.tld f) h e.fmt e.acc e.rb blank true (ps.map MovePart.piece) dfr)))) ∧
    (Runs (.tst f) s t → own = .ok u → tr = false ∨ e.is16 = true →
      (∀ ps, f.fn.getLsbD 8 = false → ¬ busy → t.moveScratch f e tr = .ok ps → storesThen ps) ∧
      (∀ x, f.fn.getLsbD 8 = true → t.moveGlobal f e tr .write = .error x → Stops (.tst f) s t { x with kind := 1 }) ∧
      (∀ n o ps, f.fn.getLsbD 8 = true → t.moveGlobal f e tr .write = .ok (n, o, ps) → storesThen ps)) ∧
    (Runs (.tcvt f) s t → (∀ x, own = .error x → Stops (.tcvt f) s t x) ∧
      (own = .ok u → (t.w.rs f.sa).toNat % 32 ≠ 0 → Raises (.tcvt f) s t ((flt 0x0A 0x00).at (t.w.rs f.sa))) ∧
      (own = .ok u → (t.w.rs f.sa).toNat % 32 = 0 →
        (∀ x, t.readVa (t.w.rs f.sa) 32 = .fault x → Stops (.tcvt f) s t x) ∧
        (t.readVa (t.w.rs f.sa) 32 = .wait → Waits (.tcvt f) s t) ∧
        (∀ t1 bs, t.readVa (t.w.rs f.sa) 32 = .ok t1 bs →
          let p := Param.ofBytes bs
          let legal := Param.legal bs [0, 1, 2, 3, 4, 6, 7]
          (legal = false → Raises (.tcvt f) s t (flt 0x02 0x05)) ∧
          (legal = true → cvtShape e.k p.fmt = none → Raises (.tcvt f) s t (flt 0x04 0x04)) ∧
          (legal = true → ∀ acc rb k, cvtShape e.k p.fmt = some (acc, rb) → (t.blk.setWarp t.w).findSlot acc = some k →
            let stride := if acc then 256 else 128
            let row (i : Nat) : List Byte := packRow p.fmt stride (((List.range e.k).zip ((t.blk.tileVals e false).getD i [])).map
              (fun x => (p.narrow x.2 (e.k * i + x.1)).val))
            ∃ (t' : View) (o : Op), Completes (.tcvt f) s t' ∧ t'.w.ops = t.w.ops ++ [o] ∧
              o.body = .tile k acc (Cells.ofList 0 ((List.range 64).flatMap (fun i =>
                if t.eff.getLsbD (i / 2) then row i else List.replicate stride 0))) [] false ∧
              (HomeAgrees s → SameMemory s t'.retire.close))))) ∧
    (Runs (.tquant f) s t →
      let e1 := t.blk.handles.getD (h + 1) .zero
      let pair := f.fn.getLsbD 5
      let hs := if pair then [h, h + 1] else [h]
      let shaped : Prop := if pair then e.k = 64 ∧ e1.k = 64 else e.k = 128
      (∀ x, t.checkHandles hs hs = .error x → Stops (.tquant f) s t x) ∧
      (t.checkHandles hs hs = .ok u → ¬ shaped → Raises (.tquant f) s t (flt 0x04 0x04)) ∧
      (t.checkHandles hs hs = .ok u → shaped → (t.w.rs f.sa).toNat % 32 ≠ 0 → Raises (.tquant f) s t ((flt 0x0A 0x00).at (t.w.rs f.sa))) ∧
      (t.checkHandles hs hs = .ok u → shaped → (t.w.rs f.sa).toNat % 32 = 0 →
        (∀ x, t.readVa (t.w.rs f.sa) 32 = .fault x → Stops (.tquant f) s t x) ∧
        (t.readVa (t.w.rs f.sa) 32 = .wait → Waits (.tquant f) s t)) ∧
      (t.checkHandles hs hs = .ok u → shaped → (t.w.rs f.sa).toNat % 32 = 0 → ∀ t1 bs, t.readVa (t.w.rs f.sa) 32 = .ok t1 bs →
        (Param.legal bs [5] = false → Raises (.tquant f) s t (flt 0x02 0x05)) ∧
        (Param.legal bs [5] = true → ∀ k, (t.blk.setWarp t.w).findSlot false = some k →
          let vals (i : Nat) : List Machine.Num := (t.blk.tileVals e false).getD i [] ++ (if pair then (t.blk.tileVals e1 false).getD i [] else [])
          let codes (i : Nat) : List Nat := (List.range 32).map (fun b =>
            ((Param.ofBytes bs).encodeQ4 (((vals i).drop (4 * b)).take 4) ((List.range 4).map (fun m => 128 * i + 4 * b + m))).val)
          let row (i : Nat) : List Byte :=
            (codes i).flatMap (leBytes 2) ++ (codes i).map (fun x => BitVec.ofNat 8 (x / 2 ^ 16)) ++ List.replicate 32 0
          ∃ (t' : View) (o : Op), Completes (.tquant f) s t' ∧ t'.w.ops = t.w.ops ++ [o] ∧
            o.body = .tile k false (Cells.ofList 0 ((List.range 64).flatMap (fun i =>
              if t.eff.getLsbD (i / 2) then row i else List.replicate 128 0))) [] false ∧
            (pair = true → (t'.blk.handles.getD (h + 1) .zero).st = .freed) ∧ (HomeAgrees s → SameMemory s t'.retire.close)))) ∧
    (Runs (.tdrain f) s t → (∀ x, own = .error x → Stops (.tdrain f) s t x) ∧
      (own = .ok u → e.acc = false → Raises (.tdrain f) s t (flt 0x04 0x04)) ∧
      (own = .ok u → e.acc = true → (t.w.rs f.sd).toNat % 16 ≠ 0 → Raises (.tdrain f) s t ((flt 0x0A 0x00).at (t.w.rs f.sd))) ∧
      (own = .ok u → e.acc = true → (t.w.rs f.sd).toNat % 16 = 0 →
        ((t.w.rs f.sa).toNat % 32 ≠ 0 → Raises (.tdrain f) s t ((flt 0x0A 0x00).at (t.w.rs f.sa))) ∧
        ((t.w.rs f.sa).toNat % 32 = 0 → (∀ x, t.readVa (t.w.rs f.sa) 32 = .fault x → Stops (.tdrain f) s t x) ∧
          (t.readVa (t.w.rs f.sa) 32 = .wait → Waits (.tdrain f) s t))) ∧
      (own = .ok u → e.acc = true → (t.w.rs f.sd).toNat % 16 = 0 → (t.w.rs f.sa).toNat % 32 = 0 →
        ∀ t1 bs, t.readVa (t.w.rs f.sa) 32 = .ok t1 bs →
        let push := f.fn.getLsbD 5
        let p := Param.ofBytes bs
        let legal := Param.legal bs (if push then [0, 2] else [0, 1, 2, 3, 4, 6])
        let eb := fmtBits p.fmt / 8
        let va (i : Nat) : Addr := t.w.rs f.sd + BitVec.ofNat 64 (64 * i * eb)
        let row (i : Nat) : List Byte := ((List.range 64).zip ((t.blk.tileVals e false).getD i [])).flatMap
          (fun x => leBytes eb (p.narrow x.2 (64 * i + x.1)).val)
        let cut := (rowsE t).flatMap (fun i => (cutRow (va i) (row i)).map (fun c => (i, va i + BitVec.ofNat 64 c.1, c.2)))
        let walked := eachLane (fun (q : Nat × Addr × List Byte) =>
          (t1.drainLeaf push (q.1 / 2) q.2.1).map (fun lf => (q.1, lf, q.2.2))) cut
        let g : BitVec 8 := (t.w.rs f.sb).extractLsb' 0 8
        let entry := t1.dev.groupEntry t.blk.launch.ctx g
        let src : Option (Nat × Word64) := some (t.w.seq, s.clock)
        (legal = false → Raises (.tdrain f) s t (flt 0x02 0x05)) ∧
        (∀ x, legal = true → walked = .error x → Stops (.tdrain f) s t { x with kind := 1 }) ∧
        (∀ rows : List (Nat × Leaf × List Byte), legal = true → walked = .ok rows →
          let mine (i : Nat) := rows.filter (fun r => r.1 == i)
          let words (i : Nat) : List (Nat × Word32) := (mine i).flatMap (fun r => (List.range (r.2.2.length / 4)).map (fun k =>
            (withGrp (r.2.1.pa + 4 * k) g, BitVec.ofNat 32 (leNat ((r.2.2.drop (4 * k)).take 4)))))
          let dfr := addAll [] ((rows.filter (fun r => pteD r.2.1.pte)).map (fun r => r.2.1.pa / 65536))
          let packets (i : Nat) : List Push :=
            if push then s.contribPackets t.blk.launch.ctx p.fmt false (words i) (some s.nextIdent) src
            else rowPackets ((mine i).map (fun r => (r.2.1.pa, r.2.2))) s.nextIdent src dfr
          (push = true → entry = none → Raises (.tdrain f) s t ((flt 0x09 0x09).onLane t.lowLane)) ∧
          (push = false ∨ entry.isSome = true → 4 ≤ t1.drains.length → 4 ≤ t.ownDrains.length → Raises (.tdrain f) s t (flt 0x05 0x03)) ∧
          (push = false ∨ entry.isSome = true → 4 ≤ t1.drains.length → t.ownDrains.length < 4 → Waits (.tdrain f) s t) ∧
          (push = false ∨ entry.isSome = true → t1.drains.length < 4 → t.w.fence.isSome = true → Waits (.tdrain f) s t) ∧
          (push = false ∨ entry.isSome = true → t1.drains.length < 4 → t.w.fence = none → ∃ t' : View,
            Completes (.tdrain f) s t' ∧
            t'.w = { (t.taken (.tdrain f)).w with seq := t.w.seq + 1, pushes := t.w.pushes ++ (rowsE t).flatMap packets } ∧ t'.blk = t.blk ∧
            t'.dev.nextIdent = s.nextIdent + 1 ∧ (HomeAgrees s → SameMemory s t'.retire.close)))))

/-! ### Barriers, stamps, counters and monitors -/

/-- Barrier objects (R410, R412, R415): their sixteen bytes, the phase completion in the change that leaves nothing pending, and the
order of the misuse checks. -/
def Clause.BarrierObjects : Prop :=
  (∀ o : BarObj, o.exp < 65536 → o.pend < 65536 → o.bytes.length = 16 ∧ BarObj.ofBytes o.bytes = o) ∧
  (∀ o : BarObj,
    (o.exp ≠ 0 → o.pend = 0 → o.bal = 0 → o.settle = { o with ph := o.ph + 1, pend := o.exp, bal := 0 }) ∧
    (o.exp = 0 ∨ o.pend ≠ 0 ∨ o.bal ≠ 0 → o.settle = o)) ∧
  (∀ (o : BarObj) (g coop : Bool),
    let fits := if g then o.sco = 3 ∨ o.sco = 4 else o.sco = 2
    (o.exp = 0 → o.misuse g coop = some (flt 0x0D 0x00)) ∧
    (o.exp ≠ 0 →
      (o.res ≠ 0 → o.misuse g coop = some (flt 0x0D 0x01)) ∧
      (o.res = 0 →
        (¬ fits → o.misuse g coop = some (flt 0x0D 0x02)) ∧
        (fits → o.sco = 4 → coop = false → o.misuse g coop = some (flt 0x0D 0x03)) ∧
        (fits → o.sco ≠ 4 ∨ coop = true → o.misuse g coop = none)))) ∧
  (∀ (s : State) (core w pa ctx : Nat) (v : Via) (sys : Bool) (f : BarObj → BarObj), s.bad = [] → HomeAgrees s →
    let o := f (BarObj.ofBytes (Cells.getMany s.mem pa 16))
    let s1 := s.writeVia v pa o.settle.bytes
    s.rmwBar core w ctx sys (.mem v pa) f =
      if o.exp ≠ 0 ∧ o.pend = 0 ∧ o.bal = 0 ∧ o.nt = true then s1.devJoin ctx sys (BitVec.ofNat 64 (64 * o.nrec.toNat)) 1 else s1)

/-- BARINIT, BARENROL, BARARRIVE, BAREXPECT, BARWAIT, STAMPTRY and STAMPSET (R411, R414, R415, R417 to R425): the checks, then the effect
on the object or word that is reached; one that is not free yet is awaited. The order of BARINIT's checks after those of its address is
the model's (log entry 74). BARARRIVE ends with a region entry after the next header (R258). -/
def Clause.BarriersIssue : Prop :=
  ∀ (f : FormH) (s : State) (t : View) (loc : Loc) (bs : List Byte) (o : BarObj),
    let g := f.fn.getLsbD 0
    let a := t.w.rs f.sa
    let t1 := t.cached g a loc 16
    let n := (t.w.rs f.sb).toNat
    let pd := (f.fn.extractLsb' 2 3).toNat
    let bnd := f.fn.getLsbD 1
    let free : Prop := g = true ∨ t.blk.offBusy (a.toNat % 2 ^ 32 : Nat) = false
    (∀ i, i = .barenrol f ∧ f.fn.getLsbD 3 = false ∨ i ∈ [.bararrive f, .barexpect f, .barwait f] → Runs i s t →
      (¬ free → Waits i s t) ∧
      (∀ e, free → t.counterLoc g a 16 = .error e → Stops i s t e) ∧
      (free → t.counterLoc g a 16 = .ok loc → t.placeBusy loc 16 = true → Waits i s t) ∧
      (∀ e, t.Reaches g a 16 loc bs → (BarObj.ofBytes bs).misuse g t.blk.launch.coop = some e → Stops i s t e)) ∧
    (Runs (.barinit f) s t →
      let nt := f.fn.getLsbD 4
      let sco := f.fn.extractLsb' 1 3
      let rcd := if nt then (t.w.rs f.sd).toNat else 0
      let plain : Prop := (BarObj.ofBytes bs).res = 0 ∧ ¬ (g = true ∧ sco = 2)
      (a.toNat % 2 ^ 32 % 16 = 0 → rcd % 64 ≠ 0 → Raises (.barinit f) s t (flt 0x0A 0x00)) ∧
      (rcd % 64 = 0 → t.Reaches g a 16 loc bs →
        ((BarObj.ofBytes bs).res ≠ 0 → Raises (.barinit f) s t (flt 0x0D 0x01)) ∧
        ((BarObj.ofBytes bs).res = 0 → g = true → sco = 2 → Raises (.barinit f) s t (flt 0x0D 0x02)) ∧
        (plain → n = 0 ∨ 65535 < n → Raises (.barinit f) s t (flt 0x0D 0x04)) ∧
        (plain → 1 ≤ n → n ≤ 65535 → 2 ^ 54 ≤ rcd → Raises (.barinit f) s t (flt 0x0D 0x06)) ∧
        (plain → 1 ≤ n → n ≤ 65535 → rcd < 2 ^ 54 → sco = 4 → t.blk.launch.coop = false → Raises (.barinit f) s t (flt 0x0D 0x03)) ∧
        (plain → 1 ≤ n → n ≤ 65535 → rcd < 2 ^ 54 → sco ≠ 4 ∨ t.blk.launch.coop = true →
          let o' : BarObj := { exp := n, pend := n, bal := 0, ph := 0, sco := sco, nt := nt, res := 0, nrec := BitVec.ofNat 48 (rcd / 64) }
          Completes (.barinit f) s (t1.through (fun s => s.writeLoc t.core t.w.num loc o'.bytes))))) ∧
    (Runs (.barenrol f) s t →
      let k := (f.fn.extractLsb' 1 2).toNat
      let c := n % 65536
      (f.fn.getLsbD 3 = true → Completes (.barenrol f) s (t.setW { t.w with enrol := t.w.enrol.set k none })) ∧
      (f.fn.getLsbD 3 = false → t.ReachesBar g a loc o →
        (c = 0 → Raises (.barenrol f) s t (flt 0x0D 0x04)) ∧
        (c ≠ 0 → Completes (.barenrol f) s
          (t1.setW { t1.w with enrol := t.w.enrol.set k (some (newEnrol (t.w.enrol.getD k none) g (slotAddr g a) c o.ph)) })))) ∧
    (Runs (.bararrive f) s t → t.ReachesBar g a loc o →
      let m := (f.fn.extractLsb' 3 6).toNat + 1
      let bal := if f.fn.getLsbD 2 then o.bal + (t.w.rs f.sb).setWidth 32 else o.bal
      let after := (f.fn.getLsbD 1 || t.w.enrolled g (slotAddr g a)) = true
      (t.mayEnter = false ∨ (after ∧ t.drained = false) → Waits (.bararrive f) s t) ∧
      (t.mayEnter = true → ¬ after ∨ t.drained = true → o.pend < m → Raises (.bararrive f) s t (flt 0x0C 0x00)) ∧
      (t.entersFreely → ¬ after ∨ t.drained = true → m ≤ o.pend → ∃ t' : View, Completes (.bararrive f) s t' ∧
        t'.w.s = (t.w.ws f.sd (o.ph.setWidth 64)).s ∧ t'.w.v = t.w.v ∧ t'.w.p = t.w.p ∧ t'.w.ckpt.resume = t.nextHeader ∧
        t'.w.enrol = countArrival t.w.enrol g (slotAddr g a) o.ph m ∧
        SameMemory (t1.putBar loc { o with pend := o.pend - m, bal := bal }).close t'.retire.close)) ∧
    (Runs (.barexpect f) s t → t.ReachesBar g a loc o →
      let w1 := t.w.ws f.sd (o.ph.setWidth 64)
      (8 ≤ t.w.held.length → Raises (.barexpect f) s t (flt 0x05 0x04)) ∧
      (t.w.held.length < 8 → Completes (.barexpect f) s
        (t1.setW { w1 with held := t.w.held ++ [.expect g loc ((t.w.rs f.sb).setWidth 32)] }))) ∧
    (Runs (.barwait f) s t → t.ReachesBar g a loc o →
      let tok := (t.w.rs f.sb).extractLsb' 0 4
      (o.ph ≠ tok → Completes (.barwait f) s (t1.setW (if bnd then t.w.wp pd t.eff 0xFFFFFFFF else t.w))) ∧
      (o.ph = tok → bnd = true → t.w.rs f.sd = 0 → Completes (.barwait f) s (t1.setW (t.w.wp pd t.eff 0))) ∧
      (o.ph = tok → bnd = false ∨ t.w.rs f.sd ≠ 0 → Completes (.barwait f) s (t1.setW
        { t.w with outst := some (.barwait t.pc t.eff g a tok bnd pd s.clock (t.w.rs f.sd)) }))) ∧
    (Runs (.stamptry f) s t →
      (∀ e, t.counterLoc true a 8 = .error e → Stops (.stamptry f) s t e) ∧
      (t.Reaches true a 8 loc bs → Completes (.stamptry f) s ((t.cached true a loc 8).setW (t.w.wp (f.fn.extractLsb' 0 3).toNat t.eff
        (if leNat bs % 2 ^ 48 < n % 2 ^ 48 then 0xFFFFFFFF else 0))))) ∧
    (Runs (.stampset f) s t →
      (∀ e, t.counterLoc true a 8 = .error e → Stops (.stampset f) s t e) ∧
      (t.counterLoc true a 8 = .ok loc →
        (8 ≤ t.w.held.length → Raises (.stampset f) s t (flt 0x05 0x04)) ∧
        (t.w.held.length < 8 → ∃ t' : View, Completes (.stampset f) s t' ∧ t'.blk = t.blk ∧
          t'.w = { t.w with held := t.w.held ++ [.stamp loc ((t.w.rs f.sb).setWidth 48)] } ∧ SameMemory s t'.retire.close)))

/-- A step stamp only grows (R423, R425): it takes the new step with the launch's block index when that is greater, and nothing else of
memory changes. -/
def Clause.StampsGrow : Prop :=
  ∀ (s : State) (core w pa : Nat) (l : Launch) (k : BitVec 48), MemoryWf s → HomeAgrees s → s.badMem pa 8 = false →
    let s' := s.applyHeld core w l (.stamp (.phys pa) k)
    SameMemoryBut pa 8 s s' ∧ ((s'.readDw pa).extractLsb' 0 48).toNat = max ((s.readDw pa).extractLsb' 0 48).toNat k.toNat ∧
      ((s.readDw pa).extractLsb' 0 48 < k → (s'.readDw pa).extractLsb' 48 16 = l.block.extractLsb' 0 16) ∧
      (k ≤ (s.readDw pa).extractLsb' 0 48 → s' = s)

/-- Barrier objects and step stamps (R410, R412, R415, R423, R425). -/
def Obligations.CounterObjects : Prop := Clause.BarrierObjects ∧ Clause.StampsGrow

/-- The end of a BARWAIT (R421): each test is an access that is translated anew (R386) and waits for a change of its bank's or region's
mode (R128, R215). When the phase has changed the warp may go on, with all ones in p(pd) for a bounded one; at the end of its bound the
last test decides; a fault of a test is the BARWAIT's. -/
def Clause.BarrierWaitsEnd : Prop :=
  ∀ (s : State) (core warp : Nat) (t : View) (pc : Addr) (eff : LaneMask) (g : Bool) (a : Word64) (tok : BitVec 4) (bnd : Bool) (pd : Nat)
    (since bound : Word64),
    s.viewOf core warp = some t → t.w.outst = some (.barwait pc eff g a tok bnd pd since bound) →
      let w1 : Warp := { t.w with outst := none }
      let t1 := t.barTouch g a
      let free (loc : Loc) : Prop := s.locHeld loc 16 = false ∧ (g = true ∨ t.blk.offBusy (a.toNat % 2 ^ 32 : Nat) = false)
      let expired : Prop := bnd = true ∧ since.toNat + bound.toNat ≤ s.clock.toNat
      (bnd = false ∨ (since.toNat ≤ s.clock.toNat ∧ s.clock.toNat < since.toNat + bound.toNat) →
        exec (.barwaitBoundExpiry core warp) s = .next s) ∧
      (∀ loc, t.counterLoc g a 16 = .ok loc → ¬ free loc → exec (.barwaitObserve core warp) s = .next s ∧
        exec (.barwaitBoundExpiry core warp) s = .next s) ∧
      (∀ e, t.counterLoc g a 16 = .error e → e.cls ≠ 0 →
        exec (.barwaitObserve core warp) s = .next (t.raise { e with addr := some pc }) ∧
        (expired → exec (.barwaitBoundExpiry core warp) s = .next (t.raise { e with addr := some pc }))) ∧
      (∀ loc bs, t.counterLoc g a 16 = .ok loc → free loc → s.readLoc core t.w.num loc 16 = .ok bs →
        let o := BarObj.ofBytes bs
        (o.ph ≠ tok → exec (.barwaitObserve core warp) s =
          .next (t1.setW (if bnd then w1.wp pd eff 0xFFFFFFFF else w1)).close) ∧
        (o.ph = tok → exec (.barwaitObserve core warp) s = .next t1.close) ∧
        (expired → exec (.barwaitBoundExpiry core warp) s =
          .next (t1.setW (w1.wp pd eff (if o.ph = tok then 0 else 0xFFFFFFFF))).close))

/-- The barrier and stamp instructions and the end of a wait (R411, R414, R417 to R425). -/
def Obligations.Barriers : Prop := Clause.BarriersIssue ∧ Clause.BarrierWaitsEnd

/-- PERF (R415, R426 to R428): counters 0 to 5 are the warp's and 6 to 8 the block's; the monitors of the core's gallery are for SYS
launches. The cycles since an event began are a sample of the enabled monitors of its source; those of a periodic source take theirs
every 1,024 cycles. A sample counts in the bin of its value and in MIN, MAX and COUNT; the host resets and installs monitors too. That
.mcfg raises a translation fault of its record before the SYS right is looked at, and reads the record after, is log entry 47. -/
def Obligations.CountersAndMonitors : Prop :=
  (∀ (f : FormH) (s : State) (t : View),
    let n := (t.w.rs f.sa).toNat
    let m := (f.fn.extractLsb' 3 2).toNat
    let gal := t.core / 8
    (Runs (.perfCtr f) s t → ∃ x, Completes (.perfCtr f) s (t.setW (t.w.ws f.sd x)) ∧ (n < 6 → x = Cells.get t.w.counters n) ∧
      (6 ≤ n → n < 9 → x = Cells.get t.blk.counters n) ∧ (9 ≤ n → x = 0)) ∧
    (Runs (.perfMrd f) s t →
      (t.blk.launch.sys = false → Raises (.perfMrd f) s t (flt 0x09 0x0A)) ∧
      (t.blk.launch.sys = true → Completes (.perfMrd f) s
        (t.setW (t.w.ws f.sd ((t.dev.monitor gal m).words.getD (t.w.rs f.sb).toNat 0))))) ∧
    (Runs (.perfMclr f) s t →
      (t.blk.launch.sys = false → Raises (.perfMclr f) s t (flt 0x09 0x0A)) ∧
      (t.blk.launch.sys = true → Completes (.perfMclr f) s
        { t with dev := t.dev.setMonitor gal m { t.dev.monitor gal m with words := 0xFFFFFFFFFFFFFFFF :: List.replicate 18 0 } })) ∧
    (Runs (.perfMcfg f) s t →
      (n % 64 ≠ 0 → Raises (.perfMcfg f) s t ((flt 0x0A 0x00).at (t.w.rs f.sa))) ∧
      (n % 64 = 0 → ∀ e, t.dev.walk t.blk.launch.ctx (t.w.rs f.sa) [600] = .error e → Stops (.perfMcfg f) s t e) ∧
      (n % 64 = 0 → (∃ l, t.dev.walk t.blk.launch.ctx (t.w.rs f.sa) [600] = .ok l) →
        (t.blk.launch.sys = false → Raises (.perfMcfg f) s t (flt 0x09 0x0A)) ∧
        (t.blk.launch.sys = true → ∀ e, t.readVa (t.w.rs f.sa) 64 = .fault e → Stops (.perfMcfg f) s t e) ∧
        (t.blk.launch.sys = true → t.readVa (t.w.rs f.sa) 64 = .wait → Waits (.perfMcfg f) s t) ∧
        (t.blk.launch.sys = true → ∀ t1 bs, t.readVa (t.w.rs f.sa) 64 = .ok t1 bs →
          (Monitor.ofRecord bs = none → Raises (.perfMcfg f) s t (flt 0x02 0x0B)) ∧
          (∀ x, Monitor.ofRecord bs = some x → Completes (.perfMcfg f) s { t1 with
            dev := t1.dev.setMonitor gal m { x with last := s.clock } }))))) ∧
  (∀ (s : State) (g m g' m' : Nat) (x : Monitor), m < 4 → m' < 4 →
    (s.setMonitor g m x).monitor g' m' = if g' = g ∧ m' = m then x else s.monitor g' m') ∧
  (∀ (s : State) (g m src : Nat) (since : Word64), m < 4 →
    let x := s.monitor g m
    (s.sample g src since).monitor g m = if x.en = true ∧ x.src.toNat = src then x.sample (s.clock - since).toNat else x) ∧
  (∀ (s : State) (g m v : Nat), g < 40 → m < 4 → (s.monitor g m).en = true → 5 ≤ (s.monitor g m).src.toNat →
    let x := s.monitor g m
    ((s.clock - x.last).toNat < 1024 → exec (.monitorSample g m v) s = .next s) ∧
    (1024 ≤ (s.clock - x.last).toNat → exec (.monitorSample g m v) s = .next (s.setMonitor g m
      { x.sample (if x.src = 5 then ((s.cat g).bins.map (fun b => b.2.length)).sum else v) with last := x.last + 1024 }))) ∧
  (∀ (x : Monitor) (v : Nat), x.words.length = 19 → x.edges.length = 15 → v < 2 ^ 32 →
    let bin := (x.edges.filter (fun e => e.toNat ≤ v)).length
    let w (k : Nat) : Word64 := (x.sample v).words.getD k 0
    let w0 (k : Nat) : Word64 := x.words.getD k 0
    bin ≤ 15 ∧ (w 0).toNat = min (w0 0).toNat v ∧ (w 1).toNat = max (w0 1).toNat v ∧ w 2 = w0 2 + 1 ∧
      (∀ k, 3 ≤ k → k < 19 → w k = if k = 3 + bin then w0 k + 1 else w0 k)) ∧
  (∀ (s : State) (p : Port) (v : Word64), s.host.boot = 3 → s.host.sem.getD 6 0 = ownerOf p →
    let g := (v.extractLsb' 0 6).toNat
    let s1 : State := { s with host := { s.host with monsel := v.extractLsb' 0 6 } }
    (v.getLsbD 6 = true → exec (.monitorReset p v) s = .next ((List.range 4).foldl
      (fun s m => s.setMonitor g m { s.monitor g m with words := 0xFFFFFFFFFFFFFFFF :: List.replicate 18 0 }) s1)) ∧
    (∀ x, hostRange (v.extractLsb' 0 55).toNat 64 = true →
      Monitor.ofRecord (Cells.getMany s.mem (v.extractLsb' 0 55).toNat 64) = some x →
        exec (.moncfg p v) s = .next (s.setMonitor s.host.monsel.toNat (v.extractLsb' 55 2).toNat { x with last := s.clock })))

/-! ### Records, queues and stopping -/

/-- The operations on records (R323 to R327, R345, R346, R505): the codes of arming a record, the join decrement, and the enqueue, which
leaves the record as it was while a page of its queue is not resident. -/
def Clause.RecordOperations : Prop :=
  (∀ (s : State) (sys : Bool) (permitted : Rec → Bool) (rcd : Addr) (d : DevPlace),
    let c := s.readAt d 60 1
    let r := Rec.ofBytes (s.readVia d.via d.pa 64)
    let busy := c = 1 ∨ c = 2 ∨ c = 3
    let arm := s.arm sys permitted rcd d
    (busy → arm = .done s 0x13) ∧
    (¬ busy → r.malformed = true → arm = .done (s.setCode d 0x10) 0x10) ∧
    (¬ busy → r.malformed = false →
      (permitted r = false → arm = .done (s.setCode d 0x12) 0x12) ∧
      (permitted r = true → r.coop = true → s.residable r = false → arm = .done (s.setCode d 0x11) 0x11) ∧
      (permitted r = true → r.coop = false ∨ s.residable r = true →
        (r.jc ≠ 0 → ∃ s', arm = .done s' 0x01 ∧ s' = { s.setCode d 0x01 with armedCoops := s'.armedCoops } ∧
          (r.coop = true → r.cont = false → d.pa ∈ s'.armedCoops)) ∧
        (r.jc = 0 → ∀ s', s.tryQueue rcd d sys r.ctx r.prio.toNat id = .done s' ∨ s.tryQueue rcd d sys r.ctx r.prio.toNat id = .refused s' →
          arm = .done s' (s'.readAt d 60 1)) ∧
        (r.jc = 0 → ∀ s' since, s.tryQueue rcd d sys r.ctx r.prio.toNat id = .waits s' since → arm = .waits s' since)))) ∧
  (∀ (s : State) (sys : Bool) (rcd : Addr) (d : DevPlace) (jc : Nat) (bs : List Byte),
    let c := s.readAt d 60 1
    let busy := c = 1 ∨ c = 2 ∨ c = 3
    let r := Rec.ofBytes bs
    let armed := s.writeArmed sys rcd d jc bs
    let queued := s.tryQueue rcd d sys r.ctx r.prio.toNat (fun u => u.writeAt d 0 bs)
    (busy → armed = .done s 0x13) ∧
    (¬ busy → jc ≠ 0 → armed = .done ((s.writeAt d 0 bs).setCode d 0x01) 0x01) ∧
    (¬ busy → jc = 0 → (∀ s', queued = .done s' ∨ queued = .refused s' → armed = .done s' (s'.readAt d 60 1)) ∧
      ∀ s' since, queued = .waits s' since → armed = .waits s' since)) ∧
  (∀ (s : State) (ctx : Nat) (sys : Bool) (rcd : Addr) (d : DevPlace) (n : Nat), MemoryWf s → HomeAgrees s →
    let c := s.readAt d 60 1
    let jc := s.readAt d 16 4
    let s' := s.joinAt ctx sys rcd d n
    let zero := s.writeAt d 16 (leBytes 4 0)
    (c ∈ [0x00, 0x04, 0x10, 0x11, 0x12, 0x14] →
      s'.readAt d 16 4 = jc - n ∧ s'.readAt d 60 1 = (if jc ≠ 0 ∧ jc ≤ n then 0x05 else c) ∧
        s'.readAt d 61 1 = (if jc < n then s.readAt d 61 1 ||| 1 else s.readAt d 61 1)) ∧
    (c = 0x01 → n < jc → s' = s.writeAt d 16 (leBytes 4 (jc - n))) ∧
    (c = 0x01 → n = jc → jc ≠ 0 → s' = zero.enqueue ctx sys rcd) ∧
    (c = 0x01 → jc < n → jc ≠ 0 → s' = (zero.setUnder d).enqueue ctx sys rcd) ∧
    (c = 0x01 → jc = 0 → s' = if n = 0 then zero else zero.setUnder d) ∧
    (c ∉ [0x00, 0x01, 0x04, 0x10, 0x11, 0x12, 0x14] → SameMemoryBut (d.pa + 61) 1 s s' ∧
      s'.readAt d 61 1 = s.readAt d 61 1 ||| 1)) ∧
  (∀ (s : State) (rcd : Addr) (d qd : DevPlace) (sys : Bool) (qctx prio : Nat) (write : State → State),
    let qva := s.qcbVa qctx prio
    let q := s.readQcb qd
    let eva := q.entryVa q.tail 8
    let queued := s.tryQueue rcd d sys qctx prio write
    let full : Prop := (q.tail + 2 ^ 32 - q.head) % 2 ^ 32 = 2 ^ q.logc
    (∀ e, s.devTranslate qctx sys .rmw qva 32 = .error e → e.cls ≠ 0 →
      (e.replayable = true → queued = .waits (s.postFault qctx sys (devRecord e qva .write)) s.clock) ∧
      (e.replayable = false → queued = .refused ((write (s.postFault qctx sys (devRecord e qva .write))).setCode d 0x14))) ∧
    (s.devTranslate qctx sys .rmw qva 32 = .ok qd →
      (q.ok = false ∨ full → queued = .refused (((write s).setOvf qd).setCode d 0x14)) ∧
      (q.ok = true → ¬ full →
        (∀ e, s.devTranslate qctx sys .write eva 8 = .error e → e.cls ≠ 0 →
          (e.replayable = true → queued = .waits (s.postFault qctx sys (devRecord e eva .write)) s.clock) ∧
          (e.replayable = false →
            queued = .refused (((write (s.postFault qctx sys (devRecord e eva .write))).setOvf qd).setCode d 0x14))) ∧
        (∀ ed, s.devTranslate qctx sys .write eva 8 = .ok ed →
          let s0 := ((write s).devTouch qctx qva).devTouch qctx eva
          queued = .done
            { ((s0.writeAt ed 0 (leBytes 8 (rcd.toNat % 2 ^ 55))).writeAt qd 20 (leBytes 4 ((q.tail + 1) % 2 ^ 32))).setCode d 0x02
              with queueTimes := s.queueTimes ++ [(qctx, rcd, s.clock, s.tick)] })))) ∧
  (∀ (s : State) (ctx : Nat) (sys : Bool) (rcd : Addr) (d : DevPlace), s.devTranslate ctx sys .rmw rcd = .ok d →
    s.enqueue ctx sys rcd = ((s.devTouch ctx rcd).tryQueue rcd d sys (s.readAt d 29 1 % 64) (s.readAt d 30 1 % 8) id).orHold
      (.enqueue ctx sys rcd))

/-- LAUNCH, SPAWN, JOIN, QDEPTH, PARK and EXIT (R344 to R350, R505): the first three are releases of the warp's earlier events, and region
entries; a LAUNCH or SPAWN whose queue has a page that is not resident waits, and tries again after 100 µs (log entry 48). PARK is a
release too (R344). -/
def Clause.QueuesIssue : Prop :=
  (∀ (f : FormH) (s : State) (t : View) (i : Instr), i ∈ [.launch f, .spawn f, .join f] → Runs i s t →
    let a := t.w.rs f.sa
    let l := t.blk.launch
    let jc := immNat f.fn f.imm
    let op (s : State) (d : DevPlace) : Armed :=
      if i = .launch f then s.arm l.sys (fun r => l.sys || (r.ctx == l.ctx && !r.sys)) a d
      else if i = .spawn f then s.writeArmed l.sys a d jc (spawnBytes l a (t.w.rs f.sb) jc)
      else .done (s.joinAt l.ctx l.sys a d jc) ((s.joinAt l.ctx l.sys a d jc).readAt d 16 4)
    let early : Prop := ∃ since, t.w.wait = some (.queue since) ∧ s.passed since (100 * 2250) = false
    (a.toNat % 64 ≠ 0 → Raises i s t ((flt 0x0A 0x00).at a)) ∧
    (a.toNat % 64 = 0 → i = .spawn f → (t.w.rs f.sb).toNat % 4 ≠ 0 → Raises i s t ((flt 0x0A 0x00).at (t.w.rs f.sb))) ∧
    (a.toNat % 64 = 0 → i ≠ .spawn f ∨ (t.w.rs f.sb).toNat % 4 = 0 →
      (∀ e, t.recordAt a = .error e → Stops i s t e) ∧
      (∀ d, t.recordAt a = .ok d →
        let busy := t.placeBusy (.mem d.via d.pa) 64
        let r := op (t.cached true a (.mem d.via d.pa) 64).close d
        (t.mayEnter = false ∨ t.drained = false ∨ busy = true ∨ early → Waits i s t) ∧
        (t.mayEnter = true → t.drained = true → busy = false → ¬ early → ∀ s1 since, r = .waits s1 since →
          ∃ t' : View, exec i s = .next (t'.stalled (stallKind i)).close ∧ t'.w.wait = some (.queue since) ∧
            t'.w.s = t.w.s ∧ t'.w.v = t.w.v ∧ t'.w.p = t.w.p ∧ t'.w.ring = t.w.ring ∧ SameMemory s1 (t'.stalled (stallKind i)).close) ∧
        (t.entersFreely → t.drained = true → busy = false → ¬ early → ∀ s1 code, r = .done s1 code →
          ∃ t' : View, Completes i s t' ∧ t'.w.s = (t.w.ws f.sd (BitVec.ofNat 64 code)).s ∧ t'.w.v = t.w.v ∧ t'.w.p = t.w.p ∧
            t'.w.ckpt.resume = t.nextHeader ∧ SameMemory s1 t'.retire.close)))) ∧
  (∀ (f : FormH) (s : State) (t : View), Runs (.qdepth f) s t →
    let q := if f.fn.getLsbD 0 then 8 else (t.w.rs f.sa).toNat % 8
    let va := t.dev.qcbVa t.blk.launch.ctx q + 16
    (va.toNat % 8 ≠ 0 → Raises (.qdepth f) s t ((flt 0x0A 0x00).at va)) ∧
    (va.toNat % 8 = 0 → ∀ e, t.readVa va 8 = .fault e → Stops (.qdepth f) s t e) ∧
    (va.toNat % 8 = 0 → t.readVa va 8 = .wait → Waits (.qdepth f) s t) ∧
    (va.toNat % 8 = 0 → ∀ t1 bs, t.readVa va 8 = .ok t1 bs →
      Completes (.qdepth f) s (t1.setW (t.w.ws f.sd
        (BitVec.ofNat 64 ((leNat (bs.drop 4 |>.take 4) + 2 ^ 32 - leNat (bs.take 4)) % 2 ^ 32)))))) ∧
  (∀ (f : FormH) (s : State) (t : View), Runs (.park f) s t →
    (∀ e, t.recordAt (t.w.rs f.sa) = .error e → Stops (.park f) s t e) ∧
    (∀ d, t.recordAt (t.w.rs f.sa) = .ok d → t.drained = false → Waits (.park f) s t) ∧
    (∀ d, t.recordAt (t.w.rs f.sa) = .ok d → t.drained = true → ∃ t' : View, Completes (.park f) s t' ∧ SameMemory s t'.retire.close ∧
      ((∀ c ∈ s.cores, c.block.stopReq = none) → t.w.life = .live →
        t'.blk.stopReq = some (.park (t.w.rs f.sa) (BitVec.ofNat 32 (immNat f.fn f.imm))) ∧ t'.w.stop ≠ .no))) ∧
  (∀ (f : FormH) (s : State) (t : View), Runs (.exit f) s t →
    let rest := t.w.runMask &&& ~~~t.eff
    let ring := replaceRunning t.w.ring [{ pc := t.nextHeader, mask := rest, st := .ready }]
    let underWay : Prop := t.w.loads ≠ [] ∨ t.w.ops ≠ []
    (ring = [] → t.mayEnter = false ∨ underWay → Waits (.exit f) s t) ∧
    (ring = [] → t.mayEnter = true → ¬ underWay → t.w.held = [] → t.w.pushes = [] → t.w.jobFault = none →
      ∃ t' : View, Completes (.exit f) s t' ∧ t'.w.life = .exited ∧ t'.w.ring = [] ∧ t'.w.depth = 0 ∧
        (t.blk.warps.length = 1 → SameMemory s t'.retire.close) ∧
        ∀ h ∈ t'.blk.handles, h.own = t.w.num → h.st = .free ∨ h.st = .handed) ∧
    (∀ sp, t.w.ring = [sp] → sp.st = .running → t.w.depth = 0 → rest ≠ 0 → ∃ t' : View, Completes (.exit f) s t' ∧
      t'.w = { t.w with ring := [{ pc := t.nextHeader, mask := rest, st := .running }], clause := none }) ∧
    (ring ≠ [] →
      (∀ e, t.putRing ring = .error e → Stops (.exit f) s t e) ∧
      (∀ t1, t.putRing ring = .ok t1 →
        (∀ e, t1.leave.settle = .error e → Stops (.exit f) s t e) ∧
        (∀ t2, t1.leave.settle = .ok t2 → t2.bsync.dev.bad = [] → Completes (.exit f) s t2.bsync))))

/-- Records, run queues, and the instructions on them (R323 to R327, R344 to R350). -/
def Obligations.RecordsQueues : Prop := Clause.RecordOperations ∧ Clause.QueuesIssue

/-! ### Tables and control registers -/

/-- OBJSET, OBJGET and RWLOAD (R387 to R389, R408). An object entry is written whole, after the warp's own accesses of it, and leaves the
caches; a new rule table, read once, replaces the block's once no warp holds a window. -/
def Clause.TablesIssue : Prop :=
  (∀ (f : FormH) (s : State) (t : View), Runs (.objset f) s t →
    let n := (t.w.rs f.sa).toNat
    let src := t.w.rs f.sb
    (4096 ≤ n → Raises (.objset f) s t (flt 0x07 0x04)) ∧
    (n < 4096 → src.toNat % 32 ≠ 0 → Raises (.objset f) s t ((flt 0x0A 0x00).at src)) ∧
    (n < 4096 → src.toNat % 32 = 0 →
      (∀ e, t.readVa src 32 = .fault e → Stops (.objset f) s t e) ∧ (t.readVa src 32 = .wait → Waits (.objset f) s t))) ∧
  (∀ (f : FormH) (s : State) (t : View), Runs (.objsetClr f) s t → 4096 ≤ (t.w.rs f.sa).toNat →
    Raises (.objsetClr f) s t (flt 0x07 0x04)) ∧
  (∀ (f : FormH) (s : State) (t : View) (i : Instr) (src : List Byte) (t0 : View),
    (i = .objsetClr f ∧ src = List.replicate 32 0 ∧ t0 = t) ∨
      (i = .objset f ∧ (t.w.rs f.sb).toNat % 32 = 0 ∧ t.readVa (t.w.rs f.sb) 32 = .ok t0 src) → Runs i s t →
    let n := (t.w.rs f.sa).toNat
    let L := t.blk.launch
    let dw (bs : List Byte) (k : Nat) : Word64 := BitVec.ofNat 64 (leNat ((bs.drop (8 * k)).take 8))
    let entry (bs : List Byte) : ObjEntry := objEntry (dw bs 0) (dw bs 1) (dw bs 2) (dw bs 3)
    n < 4096 →
      ((entry src).v = true → (entry src).ok = false → Raises i s t (flt 0x02 0x09)) ∧
      ((entry src).v = false ∨ (entry src).ok = true →
        (∀ e, t0.dev.objAt L.ctx n [800] = .error e → Stops i s t e) ∧
        (∀ lf, t0.dev.objAt L.ctx n [800] = .ok lf →
          let loc := t0.dev.placeAt lf
          (t0.placeBusy loc 32 = true → Waits i s t) ∧
          (t0.placeBusy loc 32 = false →
            (∀ e, t0.dev.readLoc t0.core t0.w.num loc 32 = .error e → Stops i s t e) ∧
            (∀ now, t0.dev.readLoc t0.core t0.w.num loc 32 = .ok now →
              (L.sys = false → (entry src).lk = true ∨ (entry now).lk = true → Raises i s t (flt 0x09 0x04)) ∧
              (L.sys = true ∨ ((entry src).lk = false ∧ (entry now).lk = false) →
                ∃ t' : View, Completes i s t' ∧ t'.w = t.w ∧ (∀ e ∈ t'.dev.objCache, e.ctx = L.ctx → e.n ≠ n) ∧
                  (HomeAgrees s → ∀ pa, loc.pa? = some pa → SameMemoryBut pa 32 s t'.retire.close ∧
                    (MemoryWf s → src.length = 32 → ∀ j, j < 32 → t'.retire.close.byteAt (pa + j) = (src.getD j 0, src.getD j 0))))))))) ∧
  (∀ (f : FormH) (s : State) (t : View), Runs (.objget f) s t →
    let n := (t.w.rs f.sa).toNat
    let L := t.blk.launch
    (4096 ≤ n → Raises (.objget f) s t (flt 0x07 0x04)) ∧
    (n < 4096 →
      (∀ e, t.dev.objAt L.ctx n [800] = .error e → Stops (.objget f) s t e) ∧
      (∀ lf, t.dev.objAt L.ctx n [800] = .ok lf →
        (pteD lf.pte = true → t.blk.commit.isSome = true → Waits (.objget f) s t) ∧
        (pteD lf.pte = false ∨ t.blk.commit = none → LoadIssued (.objget f) s t (.s f.sd) 8
          [{ lane := 0, va := none, loc := t.dev.placeAt { lf with pa := lf.pa + 8 * (f.fn.extractLsb' 0 2).toNat } }])))) ∧
  (∀ (f : FormH) (s : State) (t : View), Runs (.rwload f) s t → (∀ bs, t.w.wait ≠ some (.rules bs)) →
    let n := (f.fn.extractLsb' 0 7).toNat
    let va := t.w.rs f.sa
    (n ≠ 0 → va.toNat % 64 ≠ 0 → Raises (.rwload f) s t ((flt 0x0A 0x00).at va)) ∧
    (n = 0 ∨ va.toNat % 64 = 0 →
      (∀ e, t.readRules va n = .fault e → Stops (.rwload f) s t e) ∧
      (t.readRules va n = .wait → Waits (.rwload f) s t) ∧
      (∀ t1 bs, t.readRules va n = .ok t1 bs →
        ((∃ k, k < n ∧ entryMalformed ((bs.drop (64 * k)).take 64) = true) → Raises (.rwload f) s t (flt 0x02 0x0A)) ∧
        ((∀ k, k < n → entryMalformed ((bs.drop (64 * k)).take 64) = false) →
          ((∃ w ∈ (t.blk.setWarp t.w).warps, w.plan ≠ []) →
            exec (.rwload f) s = .next ((t1.setW { t.w with wait := some (.rules bs) }).stalled (.long 201)).close) ∧
          ((∀ w ∈ (t.blk.setWarp t.w).warps, w.plan = []) →
            ∃ t' : View, Completes (.rwload f) s t' ∧ t'.w = t.w ∧ t'.blk = { t.blk with rules := Cells.ofList 0 bs } ∧
              (HomeAgrees s → SameMemory s t'.retire.close)))))) ∧
  (∀ (f : FormH) (s : State) (t : View) (bs : List Byte), Runs (.rwload f) s t → t.w.wait = some (.rules bs) →
    (∀ w ∈ (t.blk.setWarp t.w).warps, w.plan = []) →
      ∃ t' : View, Completes (.rwload f) s t' ∧ t'.blk = { t.blk with rules := Cells.ofList 0 bs } ∧ SameMemory s t'.retire.close)

/-- TLBINV (R391): another context's translations only for SYS launches; it waits for the accesses of the context, then no cached
translation of the named pages, context or objects is left, and nothing else of memory or registers changes. That it awaits every access
of the context, also for a length of 0, is log entry 53, and that it does not await the pushes and counter operations that its own warp's
region still holds is log entry 76: these are the model's. -/
def Clause.InvalidationsIssue : Prop :=
  ∀ (f : FormH) (s : State) (t : View) (i : Instr), i ∈ [.tlbinvVa f, .tlbinvAll f, .tlbinvObj f] → Runs i s t →
    let ctx := if f.fn.getLsbD 2 then (t.w.rs f.sd).toNat % 64 else t.blk.launch.ctx
    let lo := (t.w.rs f.sa).toNat
    let n := (t.w.rs f.sb).toNat
    (f.fn.getLsbD 2 = true → t.blk.launch.sys = false → Raises i s t (flt 0x09 0x0A)) ∧
    (f.fn.getLsbD 2 = false ∨ t.blk.launch.sys = true →
      (i = .tlbinvObj f → 4096 ≤ lo ∨ 4096 < lo + n → Raises i s t (flt 0x07 0x04)) ∧
      (i ≠ .tlbinvObj f ∨ (lo < 4096 ∧ lo + n ≤ 4096) →
        (t.close.accessesOf ctx t.core t.w.num = true → Waits i s t) ∧
        (t.close.accessesOf ctx t.core t.w.num = false → ∃ t' : View, Completes i s t' ∧ SameMemory s t'.retire.close ∧
          t'.w = { t.w with faultSince := t'.w.faultSince, wait := t'.w.wait } ∧
          (i = .tlbinvAll f → (∀ e ∈ t'.dev.tlb, e.ctx ≠ ctx) ∧ (∀ e ∈ t'.dev.descCache, e.1 ≠ ctx) ∧ ∀ e ∈ t'.dev.objCache, e.ctx ≠ ctx) ∧
          (i = .tlbinvVa f → n ≠ 0 → ∀ e ∈ t'.dev.tlb, e.ctx = ctx →
            (e.vpn + 1) * 2 ^ levelShift e.level ≤ lo ∨ lo + n ≤ e.vpn * 2 ^ levelShift e.level) ∧
          (i = .tlbinvObj f → ∀ e ∈ t'.dev.objCache, e.ctx = ctx → e.n < lo ∨ lo + n ≤ e.n))))

/-- Object entries, rule tables and TLBINV (R387 to R391, R408; which accesses a TLBINV awaits: log entries 53 and 76, the model's). -/
def Obligations.TablesInvalidations : Prop := Clause.TablesIssue ∧ Clause.InvalidationsIssue

/-- CSR (R124 to R128, R392): s(sd) receives the old value and the bits that s(sb) names are replaced. The registers from 0x100 on are
for SYS launches, the bank modes and the stagger are read only, and reserved bits stay 0. cr.rwperm changes once no warp of the block
holds a window, and the writes of one cycle take effect in the order of the warps' numbers: a lower warp's does not follow a higher one's
in that cycle; a write that changes vch.mode makes the warp wait for the
change, and one behind such a change waits for it. -/
def Obligations.ControlRegisters : Prop :=
  (∀ (f : FormH) (s : State) (t : View), Runs (.csr f) s t →
    let n := f.fn.toNat
    let m := t.w.rs f.sb
    let old := t.csrRead n
    let x := (old &&& ~~~m) ||| (t.w.rs f.sa &&& m)
    let low (k : Nat) (y : Word64) : Word32 := BitVec.ofNat 32 (y.toNat % 2 ^ k)
    let idle := ∀ w ∈ (t.blk.setWarp t.w).warps, w.plan = []
    let higher : Prop := ∃ j, t.blk.rwLast = some (t.dev.clock, j) ∧ t.w.num < j
    let changing (k : Nat) : Prop := ∃ c ∈ t.dev.vchChange, c.1 = k
    (0x100 ≤ n → t.blk.launch.sys = false → Raises (.csr f) s t (flt 0x09 0x0A)) ∧
    (n < 0x100 ∨ t.blk.launch.sys = true →
      (m = 0 → n = 3 ∨ n = 4 → (∃ c ∈ t.blk.bankChanges, c.warp = t.w.num) → Waits (.csr f) s t) ∧
      (m = 0 → (n ≠ 3 ∧ n ≠ 4) ∨ (∀ c ∈ t.blk.bankChanges, c.warp ≠ t.w.num) →
        Completes (.csr f) s (t.setW (t.w.ws f.sd old))) ∧
      (m ≠ 0 → n = 3 ∨ n = 4 ∨ n = 5 → Raises (.csr f) s t (flt 0x09 0x0D)) ∧
      (m ≠ 0 → n = 0 → Completes (.csr f) s (t.setW (({ t.w with fpflags := low 6 x } : Warp).ws f.sd old))) ∧
      (m ≠ 0 → n = 1 → Completes (.csr f) s (t.setW (({ t.w with satflag := low 1 x } : Warp).ws f.sd old))) ∧
      (m ≠ 0 → n = 2 → ¬ idle ∨ higher → Waits (.csr f) s t) ∧
      (m ≠ 0 → n = 2 → idle → ¬ higher → Completes (.csr f) s { t with
        blk := { t.blk with rwperm := low 4 x, rwLast := some (t.dev.clock, t.w.num) }, w := t.w.ws f.sd old }) ∧
      (m ≠ 0 → 0x100 ≤ n → n < 0x108 →
        (changing (n - 0x100) → Waits (.csr f) s t) ∧
        (¬ changing (n - 0x100) →
          (x = old → t.dev.vchMode.length = 8 → Completes (.csr f) s (t.setW (t.w.ws f.sd old))) ∧
          (x ≠ old → Completes (.csr f) s { t with
            dev := { t.dev with vchMode := t.dev.vchMode.set (n - 0x100) x, vchChange := t.dev.vchChange ++ [(n - 0x100, x ^^^ old)] }
            w := ({ t.w with outst := some (.vch (n - 0x100)) } : Warp).ws f.sd old }))) ∧
      (m ≠ 0 → 0x108 ≤ n → Completes (.csr f) s { t with
        dev := { t.dev with vchFp := t.dev.vchFp.set (n - 0x108) (x.getLsbD 0) }, w := t.w.ws f.sd old }))) ∧
  (∀ t : View,
    t.csrRead 0 = t.w.fpflags.setWidth 64 ∧ t.csrRead 1 = t.w.satflag.setWidth 64 ∧ t.csrRead 2 = t.blk.rwperm.setWidth 64 ∧
      t.csrRead 5 = t.blk.stagger.setWidth 64 ∧
      (∀ k, k < 8 → t.csrRead (0x100 + k) = t.dev.vchMode.getD k 0 ∧
        t.csrRead (0x108 + k) = if t.dev.vchFp.getD k false then 1 else 0) ∧
      (∀ k, k < 32 → (t.csrRead 3).extractLsb' (2 * k) 2 = Cells.get t.blk.bankMode k) ∧
      (∀ k, k < 16 → (t.csrRead 4).extractLsb' (2 * k) 2 = Cells.get t.blk.bankMode (32 + k))) ∧
  (∀ (s : State) (k : Nat), (∃ c ∈ s.vchChange, c.1 = k) → ∃ s', exec (.vchModeChangeComplete k) s = .next s' ∧ SameMemory s s' ∧
    (∀ c, c ∈ s'.vchChange ↔ c ∈ s.vchChange ∧ c.1 ≠ k) ∧ ∀ c ∈ s'.cores, ∀ w ∈ c.block.warps, w.outst ≠ some (.vch k))

/-! ### The fabric -/

/-- COLLPUSH, COLLPULL, NETST and NETLD (R352 to R355, R366 to R372): their lanes pass the checks first. A push is captured, and as
COLLPUSH and NETST are region entries its packets leave at once; a release one waits for the warp's earlier events (R247, R366). A read is
under way until its lanes are answered, and the warp goes on (R367); with .fin a COLLPULL also captures a mark for each chunk it names,
which leaves at the next confirmation (R370). No byte of this device's memory changes at issue. That a COLLPULL checks the owner of its
groups as a push does, and takes the epoch of the entry installed here, is log entry 49: R370 states no fault there. -/
def Clause.FabricIssue : Prop :=
  ∀ (f : FormE) (s : State) (t : View),
    let n := typWords f.typ
    let topk := f.sub.getLsbD 0
    let size := if topk = false then 4 else if f.typ = 0 then 256 else 128
    let pushed := t.fabricLanes f .write true size (if topk then (t.offsE f).take 1 else t.offsE f)
    let stored := t.fabricLanes f .write false (4 * n) (t.offsE f)
    let loaded := t.fabricLanes f .read false (4 * n) (t.offsE f)
    let pulled := t.fabricLanes f .read true 4 (t.offsE f)
    let src : Option (Nat × Word64) := some (t.w.seq, t.dev.clock)
    let places (pull : Bool) (ls : List FabLane) : List LanePlace := ls.map (fun a =>
      { lane := a.lane, va := some a.va, loc := if pull = true then .remote (homeOf a.pa) a.pa else t.dev.placeOf a.pa })
    let first (g : List FabLane) : Nat := ((g.head?).map FabLane.pa).getD 0
    let fins (ls : List FabLane) : List Push := (groupBy (fun (a : FabLane) => a.pa / 2048) ls).map (fun g =>
      { dest := homeOf (first g), drain := none, sc := false, src := none,
        msg := .fin { sender := t.dev.deviceNo, ident := 0, grp := grpOf (first g), lanes := g.map (fun a => (a.lane, winOff a.pa)), fin := true,
                      epoch := ((t.dev.groupEntry t.blk.launch.ctx (grpOf (first g))).map GroupEntry.epoch).getD 0 } })
    let answered (p : Push) : Bool := match p.msg with
      | .fin _ => false
      | _ => true
    let sent (i : Instr) (ps : List Push) : Prop := ∃ t' : View, Completes i s t' ∧ t'.w.pushes = [] ∧ t'.w.ckpt.resume = t.nextHeader ∧
      t'.w.v = t.w.v ∧ t'.w.s = t.w.s ∧ t'.w.p = t.w.p ∧ SameMemory s t'.retire.close ∧
        ∃ rs, t'.dev.requests = t.dev.requests ++ rs ∧ rs.map (fun r => (r.core, r.warp, r.home, r.src)) =
          ((t.w.pushes ++ ps).filter answered).map (fun p => (t.core, t.w.num, p.dest, p.src))
    let awaits (i : Instr) (pull : Bool) (words : Nat) (ls : List FabLane) (dfr : Bool) (t' : View) : Prop :=
      Completes i s t' ∧ t'.blk = t.blk ∧ SameMemory s t'.retire.close ∧
        t'.w = { t.w with
          seq := t.w.seq + 1
          ops := t.w.ops ++ [{ seq := t.w.seq, pc := t.pc, instr := i, since := t.dev.clock, body := .fabric pull f.d.toNat words (places pull ls) dfr }]
          pushes := t'.w.pushes }
    (Runs (.collpush f) s t →
      (∀ e, pushed = .error e → Stops (.collpush f) s t e) ∧
      (∀ ls, pushed = .ok ls →
        (∀ e, t.groupsOwned ls = .error e → Stops (.collpush f) s t e) ∧
        (t.groupsOwned ls = .ok () →
          (t.mayEnter = false ∨ (f.ord = 2 ∧ t.drained = false) → Waits (.collpush f) s t) ∧
          (t.entersFreely → f.ord ≠ 2 ∨ t.drained = true →
            sent (.collpush f) (if topk then ls.flatMap (fun a => t.topkPacket f a.pa)
              else t.dev.contribPackets t.blk.launch.ctx f.typ false (ls.map (fun a => (a.pa, t.w.rv f.d.toNat a.lane))) none src))))) ∧
    (Runs (.netst f) s t →
      let later := f.ord ≠ 0 ∧ wideScope f.sco = true ∧ t.drained = false
      (∀ e, stored = .error e → Stops (.netst f) s t e) ∧
      (∀ ls, stored = .ok ls →
        (t.mayEnter = false ∨ later ∨ t.fabBusy ls (4 * n) = true → Waits (.netst f) s t) ∧
        (t.entersFreely → ¬ later → t.fabBusy ls (4 * n) = false →
          sent (.netst f) (storePackets (ls.map (fun a => (a.pa, leBytes (4 * n) (t.w.rvNat f.d.toNat a.lane n))))
            (f.ord == 4 && wideScope f.sco) src
            (addAll [] ((ls.filter FabLane.dfr).map (fun a => a.pa / 65536))))))) ∧
    (Runs (.netld f) s t →
      let held (ls : List FabLane) : Prop := (f.ord = 4 ∧ wideScope f.sco = true ∧ t.drained = false) ∨ t.fabBusy ls (4 * n) = true ∨
        (t.blk.commit.isSome = true ∧ ∃ a ∈ ls, a.dfr = true)
      (∀ e, loaded = .error e → Stops (.netld f) s t e) ∧
      (∀ ls, loaded = .ok ls → (held ls → Waits (.netld f) s t) ∧
        (¬ held ls → ∃ t' : View, awaits (.netld f) false n ls (ls.any FabLane.dfr) t' ∧ t'.w.pushes = t.w.pushes))) ∧
    (Runs (.collpull f) s t →
      (∀ e, pulled = .error e → Stops (.collpull f) s t e) ∧
      (∀ ls, pulled = .ok ls →
        (∀ e, t.groupsOwned ls = .error e → Stops (.collpull f) s t e) ∧
        (t.groupsOwned ls = .ok () →
          (t.w.fence.isSome = true → Waits (.collpull f) s t) ∧
          (t.w.fence = none → ∃ t' : View, awaits (.collpull f) true 1 ls false t' ∧
            t'.w.pushes = t.w.pushes ++ (if f.sub.getLsbD 0 then fins ls else [])))))

/-- Writing packets (R368, R371): all lanes of a packet go to one home and one 2 KB segment, and every lane is in exactly one packet, in
lane order. -/
def Clause.PacketsSplit : Prop :=
  ∀ (items : List (Nat × List Byte)) (sc : Bool) (src : Option (Nat × Word64)) (dfr : List Nat),
    let gs := groupBy (fun (x : Nat × List Byte) => x.1 / 2048) items
    let deferred (g : List (Nat × List Byte)) : List Nat :=
      addAll [] ((g.filter (fun x => dfr.contains (x.1 / 65536))).map (fun x => x.1 % 2 ^ 40 / 65536))
    let store (g : List (Nat × List Byte)) : NetStore :=
      { sender := 0, ident := 0, stores := g.map (fun x => (x.1 % 2 ^ 40, x.2)), deferred := deferred g }
    let packet (g : List (Nat × List Byte)) : Push :=
      { dest := homeOf (g.headD (0, [])).1, drain := none, msg := .store (store g), sc := sc, src := src }
    gs.flatten.Perm items ∧ (∀ g ∈ gs, g ≠ [] ∧ List.Sublist g items ∧ ∀ x ∈ g, ∀ y ∈ g, x.1 / 2048 = y.1 / 2048) ∧
      gs.Pairwise (fun g h => ∀ x ∈ g, ∀ y ∈ h, x.1 / 2048 ≠ y.1 / 2048) ∧
      storePackets items sc src dfr = gs.map packet

/-- COLLWAIT and COLLGRP (R356, R357, R363, R374, R375). That COLLWAIT awaits the warp's unconfirmed drains, and that an entry which was
free starts with an empty map whatever its last epoch, is log entry 49. -/
def Clause.FabricControl : Prop :=
  (∀ (f : FormH) (s : State) (t : View),
    let a := t.w.rs f.sa
    let g := f.fn.extractLsb' 0 8
    let ctx := t.blk.launch.ctx
    let reads (i : Instr) (n : Nat) : Prop :=
      (∀ e, t.readVa a n = .fault e → Stops i s t e) ∧ (t.readVa a n = .wait → Waits i s t)
    (Runs (.collwait f) s t →
      ((∃ r ∈ t.dev.requests, r.isOf t.core t.w.num = true ∧ r.kind.counted = true) ∨ (∃ p ∈ t.w.pushes, p.drain ≠ none) →
        Waits (.collwait f) s t) ∧
      ((∀ r ∈ t.dev.requests, r.isOf t.core t.w.num = true → r.kind.counted = false) → (∀ p ∈ t.w.pushes, p.drain = none) →
        Completes (.collwait f) s (t.setW (({ t.w with fs := 0 } : Warp).ws f.sd t.w.fs)))) ∧
    (Runs (.collwaitStat f) s t →
      (a.toNat % 16 ≠ 0 → Raises (.collwaitStat f) s t ((flt 0x0A 0x00).at a)) ∧
      (a.toNat % 16 = 0 → reads (.collwaitStat f) 16 ∧ ∀ t1 bs, t.readVa a 16 = .ok t1 bs →
        let x : Word64 := BitVec.ofNat 64 (leNat ((bs.drop 8).take 8))
        let done := x.getLsbD 0 = true ∧ x.extractLsb' 32 16 = (t.w.rs f.sb).extractLsb' 0 16
        (done → Completes (.collwaitStat f) s (t1.setW (t.w.ws f.sd x))) ∧ (¬ done → Waits (.collwaitStat f) s t))) ∧
    (Runs (.collgrp f) s t →
      (a.toNat % 64 ≠ 0 → Raises (.collgrp f) s t ((flt 0x0A 0x00).at a)) ∧
      (a.toNat % 64 = 0 → reads (.collgrp f) 64 ∧ ∀ t1 bs, t.readVa a 64 = .ok t1 bs →
        (GroupEntry.ofRecord g ctx bs = none → Raises (.collgrp f) s t (flt 0x02 0x08)) ∧
        (∀ e, GroupEntry.ofRecord g ctx bs = some e →
          (t.dev.groupForeign g ctx = true → Raises (.collgrp f) s t (flt 0x09 0x09)) ∧
          (t.dev.groupForeign g ctx = false → Completes (.collgrp f) s { t1 with dev := t1.dev.installGroup e })))) ∧
    (Runs (.collgrpClr f) s t →
      (t.dev.groupForeign g ctx = true → Raises (.collgrpClr f) s t (flt 0x09 0x09)) ∧
      (t.dev.groupForeign g ctx = false → Completes (.collgrpClr f) s
        { t with dev := { t.dev with groups := t.dev.groups.filter (fun e => e.grp != g) } }))) ∧
  (∀ (g : BitVec 8) (ctx : Nat) (bs : List Byte) (e : GroupEntry), GroupEntry.ofRecord g ctx bs = some e →
    e.grp = g ∧ e.ctx = ctx ∧ 1 ≤ e.exp ∧ e.exp ≤ 4096 ∧ e.op.toNat < 12 ∧ 1 ≤ e.wch ∧ e.wch ≤ 1024 ∧ 1 ≤ e.tmo.toNat ∧
      e.tmo.toNat ≤ 1000000 ∧ e.win.toNat % 2048 = 0 ∧ e.stat.toNat % 16 = 0 ∧ e.retired = []) ∧
  (∀ (s : State) (e : GroupEntry), e.retired = [] →
    let s' := s.installGroup e
    (∃ e', s'.homeEntry e.grp = some e' ∧ { e' with retired := [] } = e ∧
      (∀ o, s.homeEntry e.grp = some o → (∀ c ∈ s.heldContribs, c.1.grp ≠ e.grp) →
        e'.retired = if o.epoch = e.epoch then o.retired else []) ∧
      (s.homeEntry e.grp = none → (∀ c ∈ s.heldContribs, c.1.grp ≠ e.grp) → e'.retired = [])) ∧
      (∀ o, s.homeEntry e.grp = some o → { o with retired := [] } = e → s' = s) ∧
      (∀ g, g ≠ e.grp → s'.homeEntry g = s.homeEntry g))

/-- The fabric instructions and their packets (R352 to R357, R366 to R375; the group fault of COLLPULL, the drains that COLLWAIT awaits
and the empty map of a new entry: log entry 49, the model's). -/
def Obligations.Fabric : Prop := Clause.FabricIssue ∧ Clause.PacketsSplit ∧ Clause.FabricControl

/-- A contribution at its home (R358 to R365): after the delivery of a slot whose timer had run out before, the checks in their order, then
its words are combined in lane order, it is counted, and the slot is delivered when EXP have been counted. A delivery writes the covered
words and the status; with HOLD the slot stays for pulls until every destination has finished with it (R364). That epochs compare as
unsigned numbers, and that a contribution to a held slot already delivered is late, is log entry 49: the model's choice. -/
def Clause.FabricSlots : Prop :=
  (∀ (s : State) (c : Contribution) (x : Slot), s.slotAt c.grp c.epoch c.chunk = some x → x.overdue s = true →
    s.receiveContribution c = (s.deliver x true).receiveContribution c) ∧
  (∀ (s : State) (c : Contribution) (e : GroupEntry), (∀ x, s.slotAt c.grp c.epoch c.chunk = some x → x.overdue s = false) →
    let bad := e.key ≠ c.key ∨ e.members.getLsbD c.sender.toNat = false ∨ collType e.op.toNat ≠ c.typ ∨
      (c.topk = true ∧ 2 ≤ e.op.toNat) ∨ e.wch ≤ c.chunk
    let late := c.epoch < e.epoch ∨ (c.epoch = e.epoch ∧ (c.chunk ∈ e.retired ∨
      ∃ x, s.slotAt c.grp c.epoch c.chunk = some x ∧ x.delivered = true))
    (s.homeEntry c.grp = none → s.receiveContribution c = some (s.answer c.sender c.ident .refused)) ∧
    (s.homeEntry c.grp = some e →
      (bad → s.receiveContribution c = some (s.answer c.sender c.ident .refused)) ∧
      (¬ bad → late → s.receiveContribution c = some (s.answer c.sender c.ident .late)) ∧
      (¬ bad → e.epoch < c.epoch → s.receiveContribution c = some { s with heldContribs := s.heldContribs ++ [(c, s.clock)] }) ∧
      (¬ bad → ¬ late → c.epoch = e.epoch →
        (s.slotAt c.grp c.epoch c.chunk = none → 8192 ≤ s.slots.length → s.receiveContribution c = none) ∧
        (∀ x, s.slotAt c.grp c.epoch c.chunk = some x ∨
            s.slotAt c.grp c.epoch c.chunk = none ∧ s.slots.length < 8192 ∧ x = Slot.open e c.epoch c.chunk s.clock →
          let y := x.contribute c
          let s1 := (s.answer c.sender c.ident .accepted).putSlot y
          y.count = x.count + 1 ∧ s.receiveContribution c = some (if y.count = y.entry.exp then s1.deliver y false else s1))))) ∧
  (∀ (s : State) (k : Nat) (c : Contribution), s.contributions[k]? = some c →
    let first := (∀ x ∈ s.contributions.take k, ¬ (x.sender = c.sender ∧ x.grp = c.grp ∧ x.chunk = c.chunk)) ∧ s.pullBefore c = false
    let s0 : State := { s with contributions := s.contributions.eraseIdx k }
    (¬ first → exec (.contributionArrival (.queued k)) s = .next s) ∧
    (first →
      (∀ s', s0.receiveContribution c = some s' → exec (.contributionArrival (.queued k)) s = .next s') ∧
      (s0.receiveContribution c = none → exec (.contributionArrival (.queued k)) s = .next s))) ∧
  (∀ (s : State) (c : Contribution), c.sender ≠ s.deviceNo → (∀ w ∈ c.words, w.1 < if c.topk = true ∧ c.typ = 2 then 1024 else 512) →
    (∀ s', s.receiveContribution c = some s' → exec (.contributionArrival (.outside c)) s = .next s') ∧
    (s.receiveContribution c = none → exec (.contributionArrival (.outside c)) s = .next s)) ∧
  (∀ (x : Slot) (c : Contribution) (ws : List (Nat × Word32)) (i : Nat) (v : Word32),
    let op := x.entry.op.toNat
    let y := x.contribute { c with words := ws }
    let z := x.contribute { c with words := ws ++ [(i, v)] }
    let word := (y.words.getD i 0).toNat
    let half := (y.words.getD (i / 2) 0).toNat / 2 ^ (16 * (i % 2)) % 2 ^ 16
    let r := collApply op word v.toNat
    let rh := (fmtBF16.addBits half (v.toNat % 2 ^ 16)).val
    let inf32 (k : Nat) : Bool := decide (0x7F800000 ≤ k % 2 ^ 31)
    let nan32 (k : Nat) : Bool := decide (0x7F800000 < k % 2 ^ 31)
    let inf16 (k : Nat) : Bool := decide (0x7F80 ≤ k % 2 ^ 15)
    let nan16 (k : Nat) : Bool := decide (0x7F80 < k % 2 ^ 15)
    let f32 : Prop := op = 0 ∨ op = 3 ∨ op = 4 ∨ op = 5 ∨ op = 6
    let takes (j : Nat) (w : Word32) (nf na : Bool) : Prop :=
      z = { y with words := y.words.set j w, covered := z.covered, nonFinite := y.nonFinite || nf, nan := y.nan || na } ∧
        ∀ k, k ∈ z.covered ↔ k ∈ y.covered ∨ k = j
    x.contribute { c with words := [] } = { x with count := x.count + 1, mask := x.mask ||| (1#64 <<< c.sender.toNat) } ∧
    (f32 → takes i (BitVec.ofNat 32 r) (inf32 v.toNat || inf32 r) (nan32 v.toNat || nan32 r)) ∧
    (op = 1 → c.topk = false → takes i (BitVec.ofNat 32 r)
      (inf16 v.toNat || inf16 (v.toNat / 2 ^ 16) || (inf16 r || inf16 (r / 2 ^ 16)))
      (nan16 v.toNat || nan16 (v.toNat / 2 ^ 16) || (nan16 r || nan16 (r / 2 ^ 16)))) ∧
    (op = 1 → c.topk = true → takes (i / 2)
      (BitVec.ofNat 32 ((y.words.getD (i / 2) 0).toNat - half * 2 ^ (16 * (i % 2)) + rh * 2 ^ (16 * (i % 2)))) (inf16 v.toNat || inf16 rh) (nan16 v.toNat || nan16 rh)) ∧
    (¬ f32 → op ≠ 1 → takes i (BitVec.ofNat 32 r) false false)) ∧
  (∀ x y : Nat, x < 2 ^ 32 → y < 2 ^ 32 →
    let int (k : Nat) : Int := (BitVec.ofNat 32 k).toInt
    let nan (k : Nat) : Bool := decide (0x7F800000 < k % 2 ^ 31)
    let half (k : Nat) (a b : Nat) : Nat := (fmtBF16.addBits (a / 2 ^ (16 * k) % 2 ^ 16) (b / 2 ^ (16 * k) % 2 ^ 16)).val
    collApply 0 x y = (fmtF32.addBits x y).val ∧
    (∀ k, k < 2 → collApply 1 x y / 2 ^ (16 * k) % 2 ^ 16 = half k x y % 2 ^ 16) ∧
    collApply 2 x y = (x + y) % 2 ^ 32 ∧
    (∀ mx : Bool,
      (nan x = true ∨ nan y = true → collApply (if mx then 3 else 4) x y = 0x7FC00000) ∧
      (nan x = false → nan y = false → collApply (if mx then 3 else 4) x y = collApply (if mx then 5 else 6) x y) ∧
      collApply (if mx then 5 else 6) x y = (fmtF32.minMax mx x y).val) ∧
    int (collApply 7 x y) = max (int x) (int y) ∧ int (collApply 8 x y) = min (int x) (int y) ∧
    collApply 9 x y = x &&& y ∧ collApply 10 x y = x ||| y ∧ collApply 11 x y = x ^^^ y) ∧
  (∀ v : Nat, v < 2 ^ 32 → ∀ op, op ∈ [2, 7, 8, 9, 10, 11] → collApply op (collIdentity op).toNat v = v) ∧
  (∀ x y : Nat, x < 2 ^ 32 → y < 2 ^ 32 → ∀ op, op ∈ [2, 7, 8, 9, 10, 11] → collApply op x y = collApply op y x) ∧
  (∀ (s : State) (x : Slot) (tmo : Bool),
    let s' := s.deliver x tmo
    (x.entry.dests.getLsbD s.deviceNo.toNat = true → ∃ d, s'.deliveries = s.deliveries ++ [d] ∧ d.grp = x.grp ∧ d.epoch = x.epoch ∧
      d.chunk = x.chunk ∧ d.key = x.entry.key ∧ d.mask = x.mask ∧ d.info.getLsbD 0 = true ∧ d.info.getLsbD 1 = tmo ∧
      d.info.getLsbD 2 = x.nonFinite ∧ d.info.getLsbD 3 = x.nan ∧ d.info.extractLsb' 4 12 = 0 ∧
      d.info.extractLsb' 16 16 = BitVec.ofNat 16 x.count ∧ d.info.extractLsb' 32 16 = x.epoch ∧ d.info.extractLsb' 48 16 = 0 ∧
      d.words = if x.entry.hold then []
        else (List.range 512).filterMap (fun i => if x.covered.contains i then some (i, x.words.getD i 0) else none)) ∧
    (x.entry.hold = false ∨ x.entry.dests &&& ~~~x.fins = 0 → s'.slotAt x.grp x.epoch x.chunk = none ∧
      ∀ e, s'.homeEntry x.grp = some e → e.epoch = x.epoch → x.chunk ∈ e.retired) ∧
    (x.entry.hold = true → x.entry.dests &&& ~~~x.fins ≠ 0 →
      s'.slotAt x.grp x.epoch x.chunk = some { x with delivered := true, pulls := [], since := s.clock }))

/-- The events of slots, deliveries and pulls at their home (R343, R355, R360 to R365, R370, R377, R505). A delivery that waits for a page
makes no write before it may try again. That a pull of a newer epoch waits without a limit, and that a delivery's words are written one
at a time in ascending index, is log entry 49: the model's choice. -/
def Clause.FabricHomeEvents : Prop :=
  (∀ (s : State) (k : Nat) (x : Slot), s.slots[k]? = some x →
    (x.delivered = false → x.since.toNat + (x.entry.tmo.toNat * 2250 + 1) ≤ s.clock.toNat →
      exec (.slotTimeout k) s = .next (s.deliver x true)) ∧
    (x.delivered = true → x.entry.hold = true → x.since.toNat + x.entry.tmo.toNat * 2250 ≤ s.clock.toNat →
      exec (.holdRetireTimeout k) s = .next (s.retire x))) ∧
  (∀ (s : State) (k : Nat) (c : Contribution) (since : Word64), s.heldContribs[k]? = some (c, since) →
    (∀ e, s.homeEntry c.grp = some e → since.toNat + e.tmo.toNat * 2250 ≤ s.clock.toNat) →
      exec (.ingressHoldTimeout k) s =
        .next (({ s with heldContribs := s.heldContribs.eraseIdx k } : State).answer c.sender c.ident .refused)) ∧
  (∀ (s : State) (d : Delivery), (∀ w ∈ d.words, w.1 < 512) →
    exec (.deliveryWrite (.outside d)) s = .next { s with deliveries := s.deliveries ++ [d] }) ∧
  (∀ (s : State) (k : Nat) (d : Delivery) (e : GroupEntry), s.deliveries[k]? = some d → s.homeEntry d.grp = some e →
    let stat := e.stat + BitVec.ofNat 64 (16 * d.chunk)
    let s1 := s.trying (.delivery stat)
    (e.key ≠ d.key ∨ e.epoch ≠ d.epoch →
      exec (.deliveryWrite (.queued k)) s = .next { s with deliveries := s.deliveries.eraseIdx k }) ∧
    (e.key = d.key → e.epoch = d.epoch → s.mayTry (.delivery stat) = false → exec (.deliveryWrite (.queued k)) s = .next s) ∧
    (e.key = d.key → e.epoch = d.epoch → s.mayTry (.delivery stat) = true → HomeAgrees s →
      (∀ i v rest p, d.words = (i, v) :: rest →
        s1.devTranslate e.ctx false .write (e.win + BitVec.ofNat 64 (2048 * d.chunk + 4 * i)) 4 = .ok p →
          ∃ s', exec (.deliveryWrite (.queued k)) s = .next s' ∧ SameMemoryBut p.pa 4 s s' ∧
            s'.deliveries = s.deliveries.set k { d with words := rest } ∧
            (MemoryWf s → ∀ j, j < 4 → s'.byteAt (p.pa + j) = ((leBytes 4 v.toNat).getD j 0, (leBytes 4 v.toNat).getD j 0))) ∧
      (∀ p, d.words = [] → s1.devTranslate e.ctx false .write stat 16 = .ok p →
        let bs := leBytes 8 d.mask.toNat ++ leBytes 8 d.info.toNat
        ∃ s', exec (.deliveryWrite (.queued k)) s = .next s' ∧ SameMemoryBut p.pa 16 s s' ∧ s'.deliveries = s.deliveries.eraseIdx k ∧
          (MemoryWf s → ∀ j, j < 16 → s'.byteAt (p.pa + j) = (bs.getD j 0, bs.getD j 0))))) ∧
  (∀ (s : State) (k : Nat) (q : PullRequest), s.pullReqs[k]? = some q →
    let s0 : State := { s with pullReqs := s.pullReqs.eraseIdx k }
    let chunk := (q.lanes.headD (0, 0)).2 / 2048
    let lateAns : Answer := .pulled (q.lanes.map (fun l => (l.1, 0))) true
    (s.beforePull k q = true → exec (.pullArrival (.queued k)) s = .next s) ∧
    (s.beforePull k q = false → (∀ x, s.slotAt q.grp q.epoch chunk = some x → x.overdue s = false) →
      (q.fin = true → exec (.pullArrival (.queued k)) s = .next (s0.finMark q)) ∧
      (q.fin = false → ∀ x, s.slotAt q.grp q.epoch chunk = some x →
        (x.entry.hold = false → exec (.pullArrival (.queued k)) s = .next (s0.answer q.sender q.ident lateAns)) ∧
        (x.entry.hold = true → x.delivered = true → exec (.pullArrival (.queued k)) s = .next (s0.answer q.sender q.ident
          (.pulled (q.lanes.map (fun l => (l.1, (x.words.getD (l.2 % 2048 / 4) 0).toNat))) false))) ∧
        (x.entry.hold = true → x.delivered = false →
          exec (.pullArrival (.queued k)) s = .next (s0.putSlot { x with pulls := x.pulls ++ [q] }))) ∧
      (q.fin = false → ∀ e, s.slotAt q.grp q.epoch chunk = none → s.homeEntry q.grp = some e → chunk < e.wch →
        q.epoch < e.epoch ∨ (q.epoch = e.epoch ∧ chunk ∈ e.retired) →
          exec (.pullArrival (.queued k)) s = .next (s0.answer q.sender q.ident lateAns)) ∧
      (q.fin = false → ∀ e, s.slotAt q.grp q.epoch chunk = none → s.homeEntry q.grp = some e → chunk < e.wch → e.epoch < q.epoch →
        exec (.pullArrival (.queued k)) s = .next s))) ∧
  (∀ (s : State) (q : PullRequest), q.sender ≠ s.deviceNo →
    (∀ s', s.receivePull q = some s' → exec (.pullArrival (.outside q)) s = .next s') ∧
    (s.receivePull q = none → exec (.pullArrival (.outside q)) s = .next s)) ∧
  (∀ (s : State) (q : PullRequest) (x : Slot), s.slotAt q.grp q.epoch ((q.lanes.headD (0, 0)).2 / 2048) = some x →
    let y : Slot := { x with fins := x.fins ||| (1#64 <<< q.sender.toNat) }
    s.finMark q = if x.delivered = true ∧ x.entry.hold = true ∧ x.entry.dests &&& ~~~y.fins = 0 then s.retire y else s.putSlot y)

/-- Reduction slots and deliveries at their home (R358 to R365, R370; epochs as unsigned numbers, a late contribution to a held slot, a
pull of a newer epoch and the order of a delivery's words: log entry 49, the model's). -/
def Obligations.ReductionSlots : Prop := Clause.FabricSlots ∧ Clause.FabricHomeEvents

/-- Memory-kind packets at their home and the answers at their sender (R128, R239, R241, R255, R355, R367, R370 to R374): stores and loads
are performed one by one, those of one source to one segment in issue order; an answer ends its request, a negative one leaves its mark in
FS, the last lane of a read writes its register, and a request of any kind without an answer ends after 2 ms with TIMEOUT in FS: lanes of a
load are lost and raise class 0x0E once the others have finished, those of a pull have free values (log entry 3). The last answer of a push
instruction is a sample (R427). -/
def Obligations.FabricAnswers : Prop :=
  (∀ (s : State) (p : NetStore), p.sender ≠ s.deviceNo →
    exec (.netstArrival (.outside p)) s = .next { s with netStores := s.netStores ++ [p] }) ∧
  (∀ (s : State) (p : NetLoad), p.sender ≠ s.deviceNo → p.size ≤ 16 →
    exec (.netldArrival (.outside p)) s = .next { s with netLoads := s.netLoads ++ [p] }) ∧
  (∀ (s : State) (k : Nat) (p : NetStore), s.netStores[k]? = some p →
    let segs := p.stores.map (fun x => x.1 / 2048)
    let first := (∀ x ∈ s.netStores.take k, x.sender = p.sender → ∀ y ∈ x.stores, y.1 / 2048 ∉ segs) ∧
      ∀ x ∈ s.netLoads, x.sender = p.sender → x.ident < p.ident → ∀ l ∈ x.lanes, l.2 / 2048 ∉ segs
    (¬ first → exec (.netstArrival (.queued k)) s = .next s) ∧
    (first →
      (p.stores = [] → exec (.netstArrival (.queued k)) s =
        .next (({ s with netStores := s.netStores.eraseIdx k } : State).answer p.sender p.ident .stored)) ∧
      (∀ pa bs rest, p.stores = (pa, bs) :: rest →
        let held := s.rangeHeld pa bs.length = true ∨ (p.sender = s.deviceNo ∧ s.netAwaitsJob p = true)
        (held → exec (.netstArrival (.queued k)) s = .next s) ∧
        (¬ held → physRegion pa = .dram → ∃ s', exec (.netstArrival (.queued k)) s = .next s' ∧
          s'.netStores = s.netStores.set k { p with stores := rest } ∧
          (p.sender = s.deviceNo → ∀ r ∈ s'.requests, r.ident = p.ident → r.begun = true) ∧
          (HomeAgrees s → SameMemoryBut pa bs.length s s' ∧
            (MemoryWf s → ∀ j, j < bs.length → s'.byteAt (pa + j) = (bs.getD j 0, bs.getD j 0)))) ∧
        (¬ held → physRegion pa ≠ .dram → exec (.netstArrival (.queued k)) s =
          .next (({ s with netStores := s.netStores.eraseIdx k } : State).answer p.sender p.ident .remErr))))) ∧
  (∀ (s : State) (k : Nat) (p : NetLoad) (lane pa : Nat) (rest : List (Nat × Nat)), s.netLoads[k]? = some p → p.lanes = (lane, pa) :: rest →
    let first := (∀ x ∈ s.netStores, x.sender = p.sender → x.ident < p.ident → ∀ y ∈ x.stores, y.1 / 2048 ≠ pa / 2048) ∧
      ∀ x ∈ s.netLoads.take k, x.sender = p.sender → ∀ l ∈ x.lanes, l.2 / 2048 ≠ pa / 2048
    let v : Via := if p.deferred.contains (pa / 65536) then .deferred else .plain
    let gone : State := { s with netLoads := s.netLoads.eraseIdx k }
    let next : State := if rest = [] then gone else { s with netLoads := s.netLoads.set k { p with lanes := rest } }
    (¬ first ∨ s.rangeHeld pa p.size = true → exec (.netldArrival (.queued k)) s = .next s) ∧
    (first → s.rangeHeld pa p.size = false →
      (physRegion pa ≠ .dram ∨ s.badMem pa p.size = true →
        exec (.netldArrival (.queued k)) s = .next (gone.answer p.sender p.ident .remErr)) ∧
      (physRegion pa = .dram → s.badMem pa p.size = false → exec (.netldArrival (.queued k)) s =
        .next ((next.visitMem false v pa p.size).answer p.sender p.ident (.loaded [(lane, leNat (s.readVia v pa p.size))]))))) ∧
  (∀ (s : State) (x : Response) (r : FabricReq) (b : Block) (w : Warp), s.requests.find? (fun y => y.ident == x.ident) = some r →
    r.home ≠ s.deviceNo → r.saved = none → s.block r.core = some b → b.warp r.warp = some w →
      let mark (bit : Word64) : State := s.setBlock r.core (b.setWarp { w with fs := w.fs ||| bit })
      let rest := s.requests.filter (fun y => y.ident != r.ident)
      let more : Prop := ∃ y ∈ rest, y.isOf r.core r.warp = true ∧ y.src = r.src
      let ends (s1 : State) : Prop :=
        (∀ seq since, r.src = some (seq, since) → r.drain = none → ¬ more → exec (.fabricResponse (.outside x)) s =
          .next (({ s1 with requests := rest } : State).sample (r.core / 8) 4 since)) ∧
        (r.src = none ∨ r.drain ≠ none ∨ more → exec (.fabricResponse (.outside x)) s = .next { s1 with requests := rest })
      (r.kind = .push ∧ x.answer = .accepted ∨ (∃ sc, r.kind = .store sc) ∧ x.answer = .stored → ends s) ∧
      (r.kind = .push → x.answer = .late → ends (mark 1)) ∧ (r.kind = .push → x.answer = .refused → ends (mark 2)) ∧
      ((∃ sc, r.kind = .store sc) → x.answer = .remErr → ends (mark 8)) ∧
      (∀ seq vs, (r.kind = .netld seq ∧ x.answer = .loaded vs) ∨ (∃ c, r.kind = .pull seq c ∧ x.answer = .pulled vs false) →
        exec (.fabricResponse (.outside x)) s = .next (s.updateRead r (r.takeValues s.deviceNo vs)))) ∧
  (∀ (s : State) (k : Nat) (x : Response), s.responses[k]? = some x →
    let s1 : State := { s with responses := s.responses.eraseIdx k }
    (s.requests.find? (fun r => r.ident == x.ident) = none → exec (.fabricResponse (.queued k)) s = .next s1) ∧
    (∀ r s', s.requests.find? (fun r => r.ident == x.ident) = some r → r.saved = none → s1.takeAnswer r x.answer = some s' →
      exec (.fabricResponse (.queued k)) s = .next s')) ∧
  (∀ (s : State) (core n : Nat) (b : Block) (w : Warp) (o : Op) (pull : Bool) (reg words : Nat) (ps : List LanePlace) (dfr : Bool),
    s.block core = some b → b.warp n = some w → (∀ p ∈ ps, ∃ x, p.loc = .got x) →
      s.putFabric core n o pull reg words ps dfr = ((s.setBlock core (b.setWarp { w with
        ops := w.ops.filter (fun y => y.seq != o.seq) })).writeRegs core n (fabricWrites reg words ps)).sample (core / 8) 4 o.since) ∧
  (∀ (s : State) (k : Nat) (r : FabricReq) (b : Block) (w : Warp), s.requests[k]? = some r → r.saved = none → r.begun = false →
    r.since.toNat + 2000 * 2250 ≤ s.clock.toNat → s.block r.core = some b → b.warp r.warp = some w →
      let s1 := s.setBlock r.core (b.setWarp { w with fs := w.fs ||| 4 })
      let ended : State := { s1 with requests := s.requests.filter (fun y => y.ident != r.ident) }
      (r.kind = .push → exec (.fabricRequestTimeout k) s = .next ended) ∧
      (∀ sc, r.kind = .store sc → exec (.fabricRequestTimeout k) s = .next { ended with
        netStores := s.netStores.filter (fun p => !(p.sender == s.deviceNo && p.ident == r.ident)) }) ∧
      (∀ seq, r.kind = .netld seq ∨ r.kind = .load seq ∨ r.kind = .atomic seq →
        exec (.fabricRequestTimeout k) s = .next (s1.updateRead r (r.loseLanes s.deviceNo))) ∧
      (∀ seq c, r.kind = .pull seq c →
        exec (.fabricRequestTimeout k) s = .next (s1.updateRead r (r.freeValues s.deviceNo s.tick)))) ∧
  (∀ (s : State) (core n : Nat) (t : View) (o : Op) (pull : Bool) (reg words : Nat) (ps : List LanePlace) (dfr : Bool) (e : FaultInfo),
    s.viewOf core n = some t → (∀ p ∈ ps, p.pending = false) → laneFault o.pc 0 ps = some e →
      s.putFabric core n o pull reg words ps dfr = (t.setW (t.w.dropOp o.seq)).raise e) ∧
  (∀ (pc : Addr) (p : LanePlace) (ps : List LanePlace), (∀ x, p.loc = .got x → laneFault pc 0 (p :: ps) = laneFault pc 0 ps) ∧
    (p.loc = .lost → laneFault pc 0 (p :: ps) = some { flt 0x0E 0x03 with addr := some pc, lane := some p.lane, va := p.va }))

/-! ### Events of warps -/

/-- The selection of a quadrant (R87, R332): a ready warp of the active set that is not in an exchange; one that has not issued for 15
cycles before the others, then one that has not hinted that it yields, and of several the one longest in the set. -/
def Clause.Selection : Prop :=
  ∀ (s : State) (b : Block) (q : Quad),
    let may (n : Nat) : Prop := n ∈ q.active ∧ b.readyWarp n = true ∧ q.resting s.clock n = false
    let late (n : Nat) : Prop := ∃ w, b.warp n = some w ∧ s.passed w.lastIssue 15 = true
    let yields (n : Nat) : Prop := ∃ w, b.warp n = some w ∧ w.yielded = true
    ((∃ n, may n) → ∃ n, s.selected b q = some n) ∧
    (∀ n, s.selected b q = some n → may n ∧ (∀ m, may m → late m → late n) ∧
      (∀ m, may m → ¬ late n → yields n → yields m) ∧
      ∀ pre post, q.active = pre ++ n :: post → n ∉ pre → ∀ m ∈ pre, may m → (late n ∧ ¬ late m) ∨ (¬ yields n ∧ yields m))

/-- Exchanges (R333): the stalls that count, and what an exchange does with the two warps. -/
def Clause.Exchanges : Prop :=
  (∀ t : View, t.w.life = .live →
    (t.w.faultWait = true → t.stallFor ≠ none) ∧
    (t.w.faultWait = false →
      (∀ sd since, t.w.outst = some (.commit sd since) → t.stallFor ≠ none) ∧
      (∀ pc eff g a token bnd pd since bound, t.w.outst = some (.barwait pc eff g a token bnd pd since bound) →
        (t.stallFor ≠ none ↔ 201 ≤ (t.dev.clock - since).toNat)) ∧
      (∀ since n, t.w.outst = some (.sleep since n) → (t.stallFor ≠ none ↔ 4 * 64 ≤ n)) ∧
      (∀ since n, t.w.outst = none → t.w.waiting = some (since, .long n) → (t.stallFor ≠ none ↔ n ≤ (t.dev.clock - since).toNat)) ∧
      (t.w.outst = none → t.w.waiting = none → t.stallFor = none))) ∧
  (∀ (b : Block) (clock : Word64) (a p : Nat) (act : List Nat) (x : Pend) (rest : List Pend) (last : Option (Word64 × Nat × Nat)),
    b.quads = [{ active := a :: act, pending := x :: rest, last := last }] → a ∉ act → x.num = p → (∀ y ∈ rest, y.num ≠ p) →
      let far := ∀ y, last = some y → 8 ≤ (clock - y.1).toNat
      (far → (b.exchange clock a p).quads =
          [{ active := act ++ [p], pending := rest ++ [{ num := a, since := clock, marks := [] }], last := some (clock, a, p) }] ∧
        ∀ n w, b.warp n = some w → (b.exchange clock a p).warp n = some (if n = a ∨ n = p then w.count 2 1 else w)) ∧
      (¬ far → b.exchange clock a p = b))

/-- The events of warps in their quadrants, and the ends of waits (R44, R47, R160, R251 to R253, R332, R333, R343, R396, R435): each one
when its condition holds. A warp that is asked to stop rolls back 10 µs later unless its next instruction is a region entry then, which it
reaches (R47, R48; log entry 7); one that waits for a retry has been rolled back already (R501). -/
def Clause.WarpEventsAct : Prop :=
  ∀ (s : State) (core warp : Nat) (t : View), s.viewOf core warp = some t →
    let selects (b : Block) : Prop :=
      exec (.issueSelect core warp) s = .next { s.setBlock core b with curCore := core, curWarp := warp, next := .issue }
    let tried := t.w.tries = true ∧ t.w.waiting.isSome = true
    (t.blk.staggered = true → exec (.issueSelect core warp) s = .next s) ∧
    (t.blk.staggered = false → tried → selects t.blk) ∧
    (t.blk.staggered = false → ¬ tried → ∀ q, t.blk.quadOf warp = some q →
      (s.selected t.blk q = some warp → selects (t.blk.unyield q)) ∧
      (s.selected t.blk q ≠ some warp → exec (.issueSelect core warp) s = .next s)) ∧
    (∀ since n, t.w.outst = some (.sleep since n) → since.toNat + n ≤ s.clock.toNat →
      exec (.sleepExpiry core warp) s = .next (t.setW { t.w with outst := none }).close) ∧
    (∀ q p, t.blk.quadOf warp = some q → t.stallFor ≠ none → t.blk.readyPend q = some p →
      exec (.longLatencyStall core warp) s = .next (s.setBlock core (t.blk.exchange s.clock warp p))) ∧
    (∀ q a act, t.blk.quads.find? (fun q => q.pending.any (fun p => p.num == warp && decide (2048 ≤ (s.clock - p.since).toNat))) = some q →
      q.active = a :: act → t.blk.readyWarp warp = true →
        exec (.pendingWaitExchange core warp) s = .next (s.setBlock core (t.blk.exchange s.clock a warp))) ∧
    ((∀ g, s.grids.find? t.blk.launch.ofGrid = some g →
        g.placedAt.toNat + 64 * (t.blk.stagger.extractLsb' 8 24).toNat ≤ s.clock.toNat) →
      exec (.staggerExpiry core) s = .next (s.setBlock core { t.blk with staggered := false })) ∧
    (t.w.life = .live → t.w.stop = .asked → t.w.dead = none → t.w.askedAt.toNat + 10 * 2250 ≤ s.clock.toNat →
      (t.reaches = true → exec (.preemptTimeout core warp) s = .next s) ∧
      (t.reaches = false → t.w.faultWait = false →
        exec (.preemptTimeout core warp) s = .next (t.rollback.setW { t.rollback.w with stop := .stopped }).close) ∧
      (t.reaches = false → t.w.faultWait = true →
        exec (.preemptTimeout core warp) s = .next (t.setW { t.w with stop := .stopped }).close)) ∧
    (t.w.askedAt.toNat ≤ s.clock.toNat → s.clock.toNat < t.w.askedAt.toNat + 10 * 2250 → exec (.preemptTimeout core warp) s = .next s) ∧
    ((∀ e ∈ s.devEvents, e.1 ≠ .place core) → t.w.faultSince.toNat + 100 * 2250 ≤ s.clock.toNat →
      exec (.faultRetry (.warp core warp)) s = .next (t.setW { t.w with faultWait := false }).close) ∧
    (∀ j x, t.blk.jobs[j]? = some x → x.state = .suspended → x.since.toNat + 100 * 2250 ≤ s.clock.toNat →
      ∃ js, exec (.faultRetry (.job core j)) s = .next (s.setBlock core { t.blk with jobs := js }) ∧
        js[j]? = some { x with state := .running } ∧ ∀ k, k ≠ j → js[k]? = t.blk.jobs[k]?) ∧
    (∀ fe k ord rest, t.w.fence = some fe → fe.prior = (k, ord) :: rest →
      (s.fenceMet core t.w k ord = true → exec (.fenceComplete core warp) s =
        .next (t.setW { t.w with fence := some { fe with prior := rest }, buf := t.w.buf.erase .fence }).close) ∧
      (s.fenceMet core t.w k ord = false → exec (.fenceComplete core warp) s = .next s)) ∧
    (∀ fe, t.w.fence = some fe → fe.prior = [] → fe.hit = false →
      (s.fenceMet core t.w fe.seq fe.order = true →
        exec (.fenceComplete core warp) s = .next (t.setW { t.w with fence := none, buf := t.w.buf.filter (fun e => e != .fence) }).close) ∧
      (s.fenceMet core t.w fe.seq fe.order = false → exec (.fenceComplete core warp) s = .next s)) ∧
    (∀ fe, t.w.fence = some fe → fe.hit = true → t.w.life = .live → exec (.fenceConflict core warp) s = .next t.rollback.close ∧
      (fe.prior = [] → exec (.fenceComplete core warp) s = .next s)) ∧
    (t.w.tries = true → t.w.plan = [] → t.eff ≠ 0 → t.cl.todo ≠ [] → t.inWindow t.decoded = true →
      exec (.windowMatch core warp) s = .next (t.setW { t.w with plan := t.matchWindow t.window.1, ahead := t.window.2 }).close)

/-- The events of warps (R44, R47, R87, R160, R251 to R253, R332, R333, R343, R396, R435). -/
def Obligations.WarpEvents : Prop := Clause.Selection ∧ Clause.Exchanges ∧ Clause.WarpEventsAct

/-- A rollback (R38, R46): the warp is at its checkpoint again, with its splits, depth and descriptor, without tentative records,
pushes, held operations or loads of the region. What issued before the entry goes on; registers, flags, and stores already accepted
stand. -/
def Clause.RollbackRestores : Prop :=
  ∀ t : View, t.w.fence = none →
    let t' := t.rollback
    t'.w.ring = t.w.ckpt.ring ∧ t'.w.depth = t.w.ckpt.depth ∧ t'.w.hw = t.w.ckpt.hw ∧ t'.w.desc = t.w.ckpt.desc ∧ t'.w.clause = none ∧
      t'.w.tent = [] ∧ t'.w.pushes = [] ∧ t'.w.held = [] ∧ t'.w.loads = t.w.loads.filter (fun ld => ld.seq < t.w.ckpt.seq) ∧
      (∀ o ∈ t.w.ops, o.seq < t.w.ckpt.seq → o ∈ t'.w.ops) ∧ t'.w.v = t.w.v ∧ t'.w.s = t.w.s ∧ t'.w.p = t.w.p ∧
      t'.w.fpflags = t.w.fpflags ∧ t'.w.satflag = t.w.satflag ∧ t'.w.fs = t.w.fs ∧ t'.w.buf = t.w.buf ∧ t'.w.slices = t.w.slices ∧
      t'.blk.slots = t.blk.slots ∧ t'.blk.scratch = t.blk.scratch ∧ t'.dev.mem = t.dev.mem ∧
      (∀ n h, (n, h) ∈ t.w.ckpt.handles → (t.w.ckpt.handles.map Prod.fst).Nodup → t.blk.handles.length = 32 → n < 32 →
        t'.blk.handles.getD n .zero = h)

/-- Region entries, SLEEP and TRAP, and rollback (R33 to R39, R46, R158 to R160; a FENCE complete at once, and one that waits behind another's
speculative reads: log entries 15 and 21, the model's choices). -/
def Obligations.RegionsRollback : Prop := Clause.RegionSleepTrap ∧ Clause.RollbackRestores

/-! ### The host, power and service -/

/-- The management registers (R450, R451, R456): a write that needs a semaphore the port does not hold only sets its ERR bit; a free
semaphore goes to the port that asks, and port A's of two acquisitions in one cycle succeeds; only its holder frees it; a port's link
going down frees all of the port's. The model's readings (log entry 58): the registers serve once BOOT reads 3, and in the cycle in which
port B has acquired a semaphore no write under it takes effect, as port A may still win it. -/
def Clause.HostSemaphores : Prop :=
  (∀ (s : State) (p : Port) (k : Nat), s.host.boot = 3 → k < s.host.sem.length →
    let other : Port := if p = .a then .b else .a
    let taken : State := { s with host := { s.host with
      sem := s.host.sem.set k (ownerOf p)
      semB := if p = .b then (k, s.clock) :: s.host.semB.filter (fun x => x.1 != k) else s.host.semB } }
    (s.host.sem.getD k 0 = 0 → exec (.semAcquire p k) s = .next taken) ∧
    (s.host.sem.getD k 0 = ownerOf other → exec (.semRelease p k) s = .next s) ∧
    (s.host.sem.getD k 0 = ownerOf other → p = .b ∨ (k, s.clock) ∉ s.host.semB → exec (.semAcquire p k) s = .next s) ∧
    (s.host.sem.getD k 0 = ownerOf .b → p = .a → (k, s.clock) ∈ s.host.semB → exec (.semAcquire p k) s = .next taken) ∧
    (s.host.sem.getD k 0 = ownerOf p → exec (.semRelease p k) s = .next { s with host := { s.host with sem := s.host.sem.set k 0 } })) ∧
  (∀ (s : State) (p : Port), ∃ s', exec (.linkDown p) s = .next s' ∧ s' = { s with host := { s.host with sem := s'.host.sem } } ∧
    s'.host.sem.length = s.host.sem.length ∧
    ∀ k, s'.host.sem.getD k 0 = if s.host.sem.getD k 0 = ownerOf p then 0 else s.host.sem.getD k 0) ∧
  (∀ (s : State) (p : Port) (v : Word64), s.host.boot = 3 →
    exec (.errClear p v) s = .next { s with host := { s.host with err := s.host.err &&& ~~~(v.extractLsb' 0 2) } }) ∧
  (∀ (s : State) (p : Port) (v : Word64) (k : Nat) (e : Instr), s.host.boot = 3 →
    (e, k) ∈ [(.ctxenWrite p v, 0), (.qapp p v, 1), (.preStart p v, 2), (.quiesceGallery p 0, 3), (.returnGallery p 0, 3),
      (.substitute p 0 0, 3), (.rowRepair p 0 0 0, 3), (.spanRetrain p 0, 3), (.vchModeWrite p 0 v, 5), (.vchFpWrite p 0 v, 5),
      (.monitorReset p v, 6), (.moncfg p v, 6), (.eccClear p 0 v, 6), (.att p v, 7), (.registerWrite p 0x18 v, 0),
      (.registerWrite p 0x80 v, 0), (.registerWrite p 0x88 v, 0), (.registerWrite p 0x100 v, 1), (.registerWrite p 0x120 v, 2),
      (.registerWrite p 0x200 v, 3), (.registerWrite p 0x300 v, 4), (.registerWrite p 0x340 v, 4), (.registerWrite p 0x400 v, 5),
      (.registerWrite p 0x440 v, 5), (.registerWrite p 0x700 v, 6), (.registerWrite p 0x708 v, 6), (.registerWrite p 0x800 v, 6),
      (.registerWrite p 0x900 v, 7)] →
    (s.undecided k = true → exec e s = .next s) ∧
    (s.undecided k = false → s.host.sem.getD k 0 ≠ ownerOf p →
      exec e s = .next { s with host := { s.host with err := s.host.err ||| (if p = .a then 1 else 2) } })) ∧
  (∀ (s : State) (k : Nat), s.undecided k = true ↔ s.host.sem.getD k 0 = 2 ∧ (k, s.clock) ∈ s.host.semB) ∧
  (∀ (s : State) (p : Port) (v : Word64) (e : Instr), s.host.boot ≠ 3 →
    e ∈ [.ctxenWrite p v, .qapp p v, .tailinc p v, .preStart p v, .semAcquire p 0, .errClear p v, .att p v] → exec e s = .next s)

/-- The registers themselves, contexts, the run queues' doors, service, and attestation (R128, R450 to R454, R457, R459 to R461), for a
port that holds the semaphore. The model's readings: QAPP is one step, and QSTAT [8] is set only while its enqueue waits for a page (log
entry 58); a write of PRE with bit 6 clear only names the context, and what a substitute and a row repair ask for is as written here (log
entry 59). -/
def Clause.HostRegisters : Prop :=
  (∀ (s : State) (p : Port) (v : Word64), s.host.boot = 3 → (∀ k, k < 8 → s.host.sem.getD k 0 = ownerOf p ∧ s.undecided k = false) →
    let c := (v.extractLsb' 0 6).toNat
    let qc := (v.extractLsb' 55 6).toNat
    let rcd : Addr := (v.extractLsb' 0 55).setWidth 64
    let k := (v.extractLsb' 6 4).toNat
    let refused : State := { s with host := { s.host with svcFailed := true } }
    let svc (f : Service → Service) : State := { s with service := f s.service, host := { s.host with svcFailed := false } }
    exec (.ctxenWrite p v) s = .next { s with host := { s.host with ctxen := v } } ∧
    (s.host.qstat.getLsbD 8 = true → exec (.qapp p v) s =
      .next { s with host := { s.host with err := s.host.err ||| (if p = .a then 1 else 2) } }) ∧
    (s.host.qstat.getLsbD 8 = false →
      (∀ s1 code, s.hostArm qc rcd = .done s1 code → exec (.qapp p v) s =
        .next { s1 with host := { s1.host with qstat := BitVec.ofNat 9 code } }) ∧
      (∀ s1 since, s.hostArm qc rcd = .waits s1 since → exec (.qapp p v) s =
        .next { s1 with host := { s1.host with qstat := s1.host.qstat ||| 0x100 }, devEvents := s1.devEvents ++ [(.qapp qc rcd, since)] })) ∧
    (∀ d, k < 8 → s.devTranslate c false .rmw (s.qcbVa c k) = .ok d →
      let q := s.readQcb d
      (q.ok = false ∨ (q.tail + 2 ^ 32 - q.head) % 2 ^ 32 = 2 ^ q.logc →
        exec (.tailinc p v) s = .next ((s.devTouch c (s.qcbVa c k)).setOvf d)) ∧
      (q.ok = true → (q.tail + 2 ^ 32 - q.head) % 2 ^ 32 ≠ 2 ^ q.logc → ∃ s', exec (.tailinc p v) s = .next s' ∧ (HomeAgrees s →
        SameMemoryBut (d.pa + 20) 4 s s' ∧ (MemoryWf s → ∀ j, j < 4 →
          let b := (leBytes 4 ((q.tail + 1) % 2 ^ 32)).getD j 0
          s'.byteAt (d.pa + 20 + j) = (b, b))))) ∧
    (8 ≤ k ∨ (∃ e, s.devTranslate c false .rmw (s.qcbVa c k) = .error e ∧ e.cls ≠ 0) →
      exec (.tailinc p v) s = .next { s with host := { s.host with err := s.host.err ||| (if p = .a then 1 else 2) } }) ∧
    (k < 8 → (∃ e, s.devTranslate c false .rmw (s.qcbVa c k) = .error e ∧ e.cls = 0) → exec (.tailinc p v) s = .next s) ∧
    (v.getLsbD 6 = true → ∃ s', exec (.preStart p v) s = .next s' ∧ s'.host.preBusy = true ∧ s'.host.preDone = false ∧
      c ∈ s'.host.preSet ∧ SameMemory s s' ∧
      (∀ k, k < 64 → s'.host.ctxen.getLsbD k = (s.host.ctxen.getLsbD k && k != c)) ∧
      ∀ x ∈ s'.cores, x.block.launch.ctx = c → x.block.stopReq ≠ none) ∧
    (v.getLsbD 6 = false → exec (.preStart p v) s = .next { s with host := { s.host with pre := v.extractLsb' 0 6 } }) ∧
    (∀ k, k < 8 → (∀ x ∈ s.vchChange, x.1 ≠ k) → exec (.vchModeWrite p k v) s = .next (s.writeVchMode k v)) ∧
    (∀ k, exec (.vchFpWrite p k v) s = .next { s with vchFp := s.vchFp.set k (v.getLsbD 0) }) ∧
    (∀ g, g < 40 → g ∉ s.service.out → exec (.quiesceGallery p g) s =
      .next (svc (fun x => { x with quiescing := addAll x.quiescing [g] }))) ∧
    (∀ g, g ∈ s.service.out → g < 40 → exec (.quiesceGallery p g) s = .next (svc id)) ∧
    (∀ g, 40 ≤ g → exec (.quiesceGallery p g) s = .next refused ∧ exec (.returnGallery p g) s = .next refused) ∧
    (∀ g, g < 40 → exec (.returnGallery p g) s =
      .next (svc (fun x => { x with quiescing := x.quiescing.filter (fun y => y != g), out := x.out.filter (fun y => y != g) }))) ∧
    (∀ n k, n < 320 → k < 4 → n / 8 ∈ s.service.out → (∀ x ∈ s.service.substituted, x.2 = k → x.1 / 80 = n / 80 → x.1 = n) →
      exec (.substitute p n k) s =
        .next (svc (fun x => { x with substituted := x.substituted.filter (fun y => y.1 != n) ++ [(n, k)] }))) ∧
    (∀ n k, 320 ≤ n ∨ 4 ≤ k ∨ n / 8 ∉ s.service.out → exec (.substitute p n k) s = .next refused) ∧
    (∀ st ch row, st < 8 → ch < 32 → row < 2 ^ 20 → exec (.rowRepair p st ch row) s =
      .next (svc (fun x => { x with rows := addAll x.rows [(st, ch, row)] }))) ∧
    (∀ st ch row, 8 ≤ st ∨ 32 ≤ ch ∨ 2 ^ 20 ≤ row → exec (.rowRepair p st ch row) s = .next refused) ∧
    (∀ n, n < 18 → exec (.spanRetrain p n) s = .next (svc (fun x => { x with spans := addAll x.spans [n] }))) ∧
    (∀ n, 18 ≤ n → exec (.spanRetrain p n) s = .next refused) ∧
    (∀ k, exec (.eccClear p k v) s = .next { s with host := { s.host with
      ecc := s.host.ecc.modify k (fun x => (x.1 &&& ~~~(v.extractLsb' 0 32), x.2 &&& ~~~(v.extractLsb' 32 32))) } }) ∧
    (let a := (v.extractLsb' 0 55).toNat
     let page := 4096 * (a / 4096 + 1)
     hostRange a 32 = true → hostRange page 8192 = true →
       exec (.att p v) s = .next (s.writePhys page (s.report (Cells.getMany s.mem a 32)))) ∧
    exec (.registerWrite p 0x18 v) s = .next { s with host := { s.host with podid := v.extractLsb' 0 7 } } ∧
    exec (.registerWrite p 0x340 v) s = .next { s with host := { s.host with tlim := v } } ∧
    (∀ k, k < 8 → exec (.registerWrite p (0x300 + 8 * k) v) s = .next { s with host := { s.host with wlim := s.host.wlim.set k v } })) ∧
  (∀ (s : State) (ctx : Nat) (rcd : Addr),
    ((s.ctxDesc ctx [100]).ok = false → s.hostArm ctx rcd = .done s 0x12) ∧
    ((s.ctxDesc ctx [100]).ok = true →
      (∀ e, s.devTranslate ctx true .rmw rcd = .error e → e.cls ≠ 0 → s.hostArm ctx rcd = .done s 0x10) ∧
      (∀ d, s.devTranslate ctx true .rmw rcd = .ok d →
        (rcd.toNat % 64 ≠ 0 → s.hostArm ctx rcd = .done s 0x10) ∧
        (rcd.toNat % 64 = 0 → s.hostArm ctx rcd = (s.devTouch ctx rcd).arm true (fun r => r.ctx == ctx) rcd d)))) ∧
  (∀ (s : State) (st ch row n : Nat), ∃ s1 s2, exec (.rowRepairComplete st ch row) s = .next s1 ∧ exec (.spanRetrainComplete n) s = .next s2 ∧
    (∀ x, x ∈ s1.service.rows ↔ x ∈ s.service.rows ∧ x ≠ (st, ch, row)) ∧ (∀ x, x ∈ s2.service.spans ↔ x ∈ s.service.spans ∧ x ≠ n) ∧
    SameMemory s s1 ∧ SameMemory s s2)

/-- The host's registers (R128, R450 to R454, R457, R459 to R461; when they serve, QAPP in one step and undecided semaphores: log entry
58; PRE with bit 6 clear, the conditions of a substitute and of a row repair: log entry 59: these are the model's). -/
def Obligations.HostInterface : Prop := Clause.HostSemaphores ∧ Clause.HostRegisters

/-- Power, boot, host accesses, the power limiter, soft errors, dispensing and saving (R26, R43, R224, R328, R331, R343, R437, R444, R455,
R456, R459, R461). The model's choices: memory, the host registers and the clock are 0 after power events (log entries 4 and 6), BOOTGO
restarts an attempt (log entry 58), a host access stays within one line (log entry 6), a set is saved in one step (log entry 55), and where
an error leaves its mark (log entry 85). -/
def Obligations.DeviceEvents : Prop :=
  (∀ (s : State) (e : Instr), e ∈ [.powerUp, .powerLoss] → ∃ s', exec e s = .next s' ∧ s'.cores = [] ∧ s'.host = State.reset.host ∧
    s'.clock = 0 ∧ s'.bad = [] ∧ s'.home = [] ∧ ∀ a, Cells.get s'.mem a = if physRegion a = .host then Cells.get s.mem a else 0) ∧
  (∀ (s : State) (p : Port) (v : Word64),
    (s.host.boot = 1 ∨ s.host.boot = 3 → exec (.bootgo p v) s =
      .next { s with host := { s.host with err := s.host.err ||| (if p = .a then 1 else 2) } }) ∧
    (s.host.boot = 0 ∨ s.host.boot = 2 → v.getLsbD 0 = true →
      exec (.bootgo p v) s = .next { s with host := { s.host with boot := 0, bootBusy := true } }) ∧
    exec (.registerWrite p 0x20 v) s = .next { s with host := { s.host with bootaddr := v.extractLsb' 0 48 } } ∧
    exec (.registerWrite p 0x28 v) s = .next { s with host := { s.host with bootlen := v.extractLsb' 0 32 } }) ∧
  (∀ s : State, s.host.bootBusy = true →
    (∀ d, s.acceptImage = some d → exec .firmwareVerified s =
      .next { s with host := { s.host with boot := 1, bootBusy := false, fwDigest := d } }) ∧
    (s.acceptImage = none → exec .firmwareVerified s = .next { s with host := { s.host with boot := 2, bootBusy := false } })) ∧
  (∀ s : State, s.host.boot = 1 → exec .firmwareRunning s = .next { s with host := { s.host with boot := 3 } }) ∧
  (∀ (s : State) (pa : Nat) (bs : List Byte), bs ≠ [] → pa % 64 + bs.length ≤ 64 → physRegion pa ∈ [.dram, .host] →
    s.rangeHeld pa bs.length = false →
    ∃ s', exec (.hostMemAccess pa (.write bs)) s = .next s' ∧ (HomeAgrees s → SameMemoryBut pa bs.length s s' ∧
      (MemoryWf s → ∀ j, j < bs.length → s'.byteAt (pa + j) = (bs.getD j 0, bs.getD j 0)))) ∧
  (∀ (s : State) (pa n : Nat), pa % 64 + n ≤ 64 → ∃ s', exec (.hostMemAccess pa (.read n)) s = .next s' ∧ (HomeAgrees s → SameMemory s s')) ∧
  (∀ (s : State) (wing amps temp : Nat), wing < 8 → ∃ s', exec (.limiterSample wing amps temp) s = .next s' ∧
    s' = { s with service := { s.service with withheld := s'.service.withheld } } ∧
    (wing ∈ s'.service.withheld ↔
      (s.host.wlim.getD wing 0 ≠ 0 ∧ (s.host.wlim.getD wing 0).toNat < amps) ∨ s.host.tlim.toNat < temp) ∧
    ∀ w, w ≠ wing → (w ∈ s'.service.withheld ↔ w ∈ s.service.withheld)) ∧
  (∀ c w n x : Nat, eccOf (.vreg c w n x) = 0 ∧ eccOf (.sreg c w n) = 0 ∧ eccOf (.pred c w n) = 0 ∧ eccOf (.slice c w n x) = 0 ∧
    eccOf (.scratch c x) = 1 ∧ eccOf (.fifo c n x) = 1 ∧ eccOf (.slot c n x) = 2 ∧ eccOf (.plane c n) = 2 ∧ eccOf (.cached x) = 3 ∧
    eccOf (.vaultCached x) = 4 ∧ eccOf (.memory x) = 5 ∧ eccOf (.packet x) = 6 ∧ eccOf (.frame x) = 7) ∧
  (∀ (s : State) (p : Place), s.host.ecc.length = 8 → ∃ s', exec (.softError p false) s = .next s' ∧ SameMemory s s' ∧
    (∀ w, p = .packet w ∨ (p = .cached w ∧ ∀ e ∈ s.home, e.sector ≠ w / 32) → s'.bad = s.bad) ∧
    (∀ w, p = .frame w → .memory w ∈ s'.bad) ∧ (∀ w, p = .cached w → (∃ e ∈ s.home, e.sector = w / 32) → p ∈ s'.bad) ∧
    ((∀ w, p ≠ .packet w ∧ p ≠ .cached w ∧ p ≠ .frame w) → p ∈ s'.bad) ∧
    (s'.host.ecc.getD (eccOf p) (0, 0)).2 = satInc (s.host.ecc.getD (eccOf p) (0, 0)).2) ∧
  (∀ (s : State) (p : Place), s.host.ecc.length = 8 → ∃ s', exec (.softError p true) s = .next s' ∧ s'.bad = s.bad ∧ SameMemory s s' ∧
    (s'.host.ecc.getD (eccOf p) (0, 0)).1 = satInc (s.host.ecc.getD (eccOf p) (0, 0)).1) ∧
  (∀ (s : State) (die core : Nat), die < 4 → core / 80 = die → s.fit core = true →
    (s.queueHeads.2 = [] → exec (.dispense die core) s = .next s.queueHeads.1) ∧
    (∀ h r, s.queueHeads.2 = h :: r →
      (∀ s1, s.queueHeads.1.serveHead die core h = .progress s1 → exec (.dispense die core) s = .next s1) ∧
      (s.queueHeads.1.serveHead die core h = .holds → exec (.dispense die core) s = .next s.queueHeads.1) ∧
      (∀ s1, r = [] → s.queueHeads.1.serveHead die core h = .tryNext s1 → exec (.dispense die core) s = .next s1))) ∧
  (∀ (s : State) (k : Nat) (g : Grid) (c : Commit) (d : DevPlace), s.grids[k]? = some g → g.commit = some c → c.acked = true → g.succ = 0 →
    (s.mayTry (.grid g.ctx g.record) = false → exec (.gridCompletion k) s = .next s) ∧
    (s.mayTry (.grid g.ctx g.record) = true →
      (s.trying (.grid g.ctx g.record)).devTranslate g.ctx g.sys .write (g.record + 60) 1 = .ok d →
        ∃ s', exec (.gridCompletion k) s = .next s' ∧ s'.grids = s.grids.eraseIdx k ∧
          (HomeAgrees s → SameMemoryBut d.pa 1 s s' ∧ (MemoryWf s → s'.byteAt d.pa = (4, 4))))) ∧
  (∀ (s : State) (core : Nat) (c : Core), s.cores.find? (fun x => x.num == core) = some c →
    let p : Party := .save (((s.saveSet c).head?.map Core.num).getD core)
    let s1 := (s.saveSet c).foldl State.saveErrors (s.trying p)
    let may := (∀ x ∈ s.saveSet c, s.saveReady x = true) ∧ s.mayTry p = true
    (¬ may → exec (.saveBlock core) s = .next s) ∧
    (may → exec (.saveBlock core) s = .next (match s1.saveAll (s1.saveSet c) with
      | .done s2 => s2
      | .waits s2 since => s2.holdSince (.party c.block.launch.ctx p) since
      | .fails s2 => s2.resumeSet (s1.saveSet c))))
end

