-- ==== Sys2Proof/Laws/Cells.lean ====
section
/-!
SUPPORT. Laws of sparse tables: reading after writing, and that every operation keeps the canonical form.
-/
namespace Sys2Proof.Machine

variable {n : Nat}

theorem Cells.wf_cons {e : Nat × BitVec n} {m : Cells n} :
    Cells.wf (e :: m) = true ↔ e.2 ≠ 0#n ∧ (∀ x ∈ m, e.1 < x.1) ∧ Cells.wf m = true := by
  obtain ⟨a, v⟩ := e
  simp only [Cells.wf, Bool.and_eq_true, bne_iff_ne, ne_eq, List.all_eq_true, decide_eq_true_eq, and_assoc]

theorem Cells.get_eq_zero {m : Cells n} {k : Nat} (h : ∀ x ∈ m, x.1 ≠ k) : Cells.get m k = 0#n := by
  induction m with
  | nil => rfl
  | cons e m ih =>
    obtain ⟨a, v⟩ := e
    have ha : a ≠ k := h (a, v) (List.mem_cons_self ..)
    simp only [Cells.get, if_neg ha]
    exact ih fun x hx => h x (List.mem_cons_of_mem _ hx)

theorem Cells.mem_set {m : Cells n} {k : Nat} {x : BitVec n} {e : Nat × BitVec n} (h : e ∈ Cells.set m k x) :
    e ∈ m ∨ e = (k, x) ∧ x ≠ 0#n := by
  induction m with
  | nil =>
    by_cases hx : x = 0#n <;> simp_all [Cells.set]
  | cons a m ih =>
    obtain ⟨b, v⟩ := a
    simp only [Cells.set] at h
    split at h
    · split at h <;> simp_all
      tauto
    · split at h
      · split at h <;> simp_all
        tauto
      · rcases List.mem_cons.1 h with h | h
        · exact .inl (by simp [h])
        · rcases ih h with h | h
          · exact .inl (List.mem_cons_of_mem _ h)
          · exact .inr h

/-- A write keeps the canonical form. -/
theorem Cells.set_wf {m : Cells n} (k : Nat) (x : BitVec n) (h : Cells.wf m = true) : Cells.wf (Cells.set m k x) = true := by
  induction m with
  | nil => by_cases hx : x = 0#n <;> simp [Cells.set, Cells.wf, hx]
  | cons e m ih =>
    obtain ⟨a, v⟩ := e
    obtain ⟨hv, hlt, hm⟩ := Cells.wf_cons.1 h
    simp only [Cells.set]
    split
    · next hk =>
      split
      · exact h
      · next hx =>
        refine Cells.wf_cons.2 ⟨hx, ?_, h⟩
        intro y hy
        rcases List.mem_cons.1 hy with rfl | hy
        · exact hk
        · exact lt_trans hk (hlt y hy)
    · split
      · next hk =>
        subst hk
        split
        · exact hm
        · next hx => exact Cells.wf_cons.2 ⟨hx, hlt, hm⟩
      · refine Cells.wf_cons.2 ⟨hv, ?_, ih hm⟩
        intro y hy
        rcases Cells.mem_set hy with hy | ⟨rfl, -⟩
        · exact hlt y hy
        · simp only
          omega

/-- A write of one key leaves the others, whatever the form of the table. -/
theorem Cells.get_set_ne {m : Cells n} {k j : Nat} (x : BitVec n) (h : j ≠ k) : Cells.get (Cells.set m k x) j = Cells.get m j := by
  induction m with
  | nil => by_cases hx : x = 0#n <;> simp [Cells.set, Cells.get, hx, Ne.symm h]
  | cons e m ih =>
    obtain ⟨a, v⟩ := e
    simp only [Cells.set]
    split
    · split <;> simp [Cells.get, Ne.symm h]
    · split
      · next hk =>
        subst hk
        split <;> simp [Cells.get, Ne.symm h]
      · simp [Cells.get, ih]

/-- Reading after a write of one key. -/
theorem Cells.get_set {m : Cells n} (k j : Nat) (x : BitVec n) (h : Cells.wf m = true) :
    Cells.get (Cells.set m k x) j = if j = k then x else Cells.get m j := by
  induction m with
  | nil =>
    by_cases hx : x = 0#n
    · simp [Cells.set, Cells.get, hx]
    · by_cases hj : j = k
      · simp [Cells.set, Cells.get, hx, hj]
      · simp [Cells.set, Cells.get, hx, hj, Ne.symm hj]
  | cons e m ih =>
    obtain ⟨a, v⟩ := e
    obtain ⟨hv, hlt, hm⟩ := Cells.wf_cons.1 h
    have hz : k < a → ∀ y ∈ (a, v) :: m, y.1 ≠ k := by
      intro hk y hy
      rcases List.mem_cons.1 hy with rfl | hy
      · simp only
        omega
      · have := hlt y hy
        simp only at this
        omega
    simp only [Cells.set]
    split
    · next hk =>
      split
      · next hx =>
        by_cases hj : j = k
        · subst hj; simp only [if_true, hx]
          exact Cells.get_eq_zero (hz hk)
        · simp only [if_neg hj]
      · by_cases hj : j = k
        · subst hj; simp [Cells.get]
        · simp [Cells.get, hj, Ne.symm hj]
    · split
      · next hk =>
        subst hk
        split
        · next hx =>
          by_cases hj : j = k
          · subst hj; simp only [if_true, hx]
            exact Cells.get_eq_zero fun y hy => (hlt y hy).ne'
          · simp [Cells.get, hj, Ne.symm hj]
        · by_cases hj : j = k
          · subst hj; simp [Cells.get]
          · simp [Cells.get, hj, Ne.symm hj]
      · next h1 h2 =>
        simp only [Cells.get, ih hm]
        by_cases hj : a = j
        · subst hj
          have h3 : a ≠ k := fun h => h2 h.symm
          simp [h3]
        · simp [hj]

theorem Cells.setMany_wf {m : Cells n} (k : Nat) (xs : List (BitVec n)) (h : Cells.wf m = true) :
    Cells.wf (Cells.setMany m k xs) = true := by
  induction xs generalizing m k with
  | nil => exact h
  | cons x xs ih => exact ih (k + 1) (Cells.set_wf k x h)

/-- Reading after a write of a run of keys. -/
theorem Cells.get_setMany {m : Cells n} (k j : Nat) (xs : List (BitVec n)) (h : Cells.wf m = true) :
    Cells.get (Cells.setMany m k xs) j = if k ≤ j ∧ j < k + xs.length then xs.getD (j - k) 0#n else Cells.get m j := by
  induction xs generalizing m k with
  | nil =>
    have : ¬ (k ≤ j ∧ j < k + ([] : List (BitVec n)).length) := by simp
    simp only [Cells.setMany, if_neg this]
  | cons x xs ih =>
    simp only [Cells.setMany, ih (k + 1) (Cells.set_wf k x h), Cells.get_set k j x h, List.length_cons]
    by_cases hj : j = k
    · subst hj
      simp
    · by_cases h1 : k + 1 ≤ j ∧ j < k + 1 + xs.length
      · have h2 : k ≤ j ∧ j < k + (xs.length + 1) := by omega
        have h3 : j - k = (j - (k + 1)) + 1 := by omega
        simp only [if_pos h1, if_pos h2, h3, List.getD_cons_succ]
      · have h2 : ¬ (k ≤ j ∧ j < k + (xs.length + 1)) := by omega
        simp only [if_neg h1, if_neg h2, if_neg hj]

/-- Keeping some of the entries keeps the canonical form. -/
theorem Cells.filter_wf {m : Cells n} (p : Nat × BitVec n → Bool) (h : Cells.wf m = true) :
    Cells.wf (m.filter p) = true := by
  induction m with
  | nil => rfl
  | cons e m ih =>
    obtain ⟨hv, hlt, hm⟩ := Cells.wf_cons.1 h
    simp only [List.filter_cons]
    split
    · exact Cells.wf_cons.2 ⟨hv, fun x hx => hlt x (List.mem_of_mem_filter hx), ih hm⟩
    · exact ih hm

theorem Cells.clear_wf {m : Cells n} (lo hi : Nat) (h : Cells.wf m = true) : Cells.wf (Cells.clear m lo hi) = true :=
  Cells.filter_wf _ h

theorem Cells.writeLE_wf {m : Cells 8} (a k x : Nat) (h : Cells.wf m = true) : Cells.wf (Cells.writeLE m a k x) = true :=
  Cells.setMany_wf a _ h

theorem Cells.blit_wf {m : Cells n} (base : Nat) (img : Cells n) (h : Cells.wf m = true) :
    Cells.wf (Cells.blit m base img) = true := by
  induction img generalizing m with
  | nil => exact h
  | cons e r ih => exact ih (Cells.set_wf _ _ h)

theorem Cells.ofList_ge (k : Nat) (xs : List (BitVec n)) : ∀ e ∈ Cells.ofList k xs, k ≤ e.1 := by
  induction xs generalizing k with
  | nil => simp [Cells.ofList]
  | cons x xs ih =>
    intro e he
    simp only [Cells.ofList] at he
    split at he
    · have := ih (k + 1) e he
      omega
    · rcases List.mem_cons.1 he with rfl | he
      · exact le_refl _
      · have := ih (k + 1) e he
        omega

theorem Cells.ofList_wf (k : Nat) (xs : List (BitVec n)) : Cells.wf (Cells.ofList k xs) = true := by
  induction xs generalizing k with
  | nil => rfl
  | cons x xs ih =>
    simp only [Cells.ofList]
    split
    · exact ih (k + 1)
    · next hx => exact Cells.wf_cons.2 ⟨hx, fun e he => Cells.ofList_ge (k + 1) xs e he, ih (k + 1)⟩

/-- The length of a run of values read. -/
@[simp] theorem Cells.length_getMany (m : Cells n) (k c : Nat) : (Cells.getMany m k c).length = c := by
  induction c generalizing k with
  | zero => rfl
  | succ c ih => simp [Cells.getMany, ih]

@[simp] theorem length_leBytes (k x : Nat) : (leBytes k x).length = k := by
  induction k generalizing x with
  | zero => rfl
  | succ k ih => simp [leBytes, ih]

end Sys2Proof.Machine
end

