-- ==== Sys2Proof/Laws/Home.lean ====
section
/-!
SUPPORT. Laws of stores and of the home slices: what a store or an access can change of a state, and what memory is after it where
the home slices agree with the vault cache.
-/
namespace Sys2Proof.Machine

/-! ### What an access can change -/

/-- From `s` to `s'` only memory, the earlier forms of code, the home slices, the error marks and the blocks may differ, and no error
mark is new where there was none. -/
def OnlyHome (s s' : State) : Prop :=
  ∃ m o h c e, s' = { s with mem := m, oldCode := o, home := h, cores := c, bad := e } ∧ (s.bad = [] → e = [])

theorem OnlyHome.refl (s : State) : OnlyHome s s := ⟨_, _, _, _, _, rfl, id⟩

theorem OnlyHome.trans {a b c : State} (h : OnlyHome a b) (g : OnlyHome b c) : OnlyHome a c := by
  obtain ⟨_, _, _, _, _, rfl, hb⟩ := h
  obtain ⟨_, _, _, _, _, rfl, gb⟩ := g
  exact ⟨_, _, _, _, _, rfl, fun n => gb (hb n)⟩

theorem OnlyHome.foldl {α : Type} {f : State → α → State} (hf : ∀ s x, OnlyHome s (f s x)) (l : List α) (s : State) :
    OnlyHome s (l.foldl f s) := by
  induction l generalizing s with
  | nil => exact .refl s
  | cons x l ih => exact (hf s x).trans (ih _)

theorem OnlyHome.ite {c : Bool} {s a b : State} (ha : OnlyHome s a) (hb : OnlyHome s b) : OnlyHome s (if c = true then a else b) := by
  split
  · exact ha
  · exact hb

theorem State.putMem_only (s : State) (pa : Nat) (bs : List Byte) : OnlyHome s (s.putMem pa bs) := ⟨_, _, _, _, _, rfl, id⟩

theorem State.evict_only (s : State) (k : Nat) : OnlyHome s (s.evict k) := by
  unfold State.evict
  dsimp only
  split
  · exact ⟨_, _, _, _, _, rfl, fun h => by simp [h]⟩
  · exact ⟨_, _, _, _, _, rfl, fun h => by simp [h]⟩

theorem State.clean_only (s : State) (k : Nat) : OnlyHome s (s.clean k) := by
  unfold State.clean
  split
  · exact (s.evict_only k).trans ⟨_, _, _, _, _, rfl, id⟩
  · exact .refl s

theorem State.onLine_only {f : State → Nat → State} (hf : ∀ s k, OnlyHome s (f s k)) (s : State) (k : Nat) : OnlyHome s (s.onLine f k) :=
  OnlyHome.ite (.refl s) (.foldl (fun u _ => hf u _) _ _)

theorem State.evictLine_only (s : State) (k : Nat) : OnlyHome s (s.evictLine k) := State.onLine_only State.evict_only s k

theorem State.makeRoom_only (s : State) (k : Nat) : OnlyHome s (s.makeRoom k) :=
  OnlyHome.ite (.refl s) (s.evictLine_only _)

theorem State.holdSector_only (s : State) (cls : Nat) (d : Bool) (k : Nat) : OnlyHome s (s.holdSector cls d k) := by
  unfold State.holdSector
  split
  · exact OnlyHome.ite ⟨_, _, _, _, _, rfl, id⟩ (.refl s)
  · exact (s.makeRoom_only k).trans ⟨_, _, _, _, _, rfl, id⟩

theorem State.holdRange_only (s : State) (cls : Nat) (d : Bool) (pa n : Nat) : OnlyHome s (s.holdRange cls d pa n) :=
  OnlyHome.ite (.foldl (fun u k => u.holdSector_only _ _ k) _ _) (.refl s)

theorem State.writePhys_only (s : State) (pa : Nat) (bs : List Byte) (cls : Nat) : OnlyHome s (s.writePhys pa bs cls) := by
  unfold State.writePhys
  split
  · exact (s.putMem_only _ _).trans (State.holdRange_only _ _ _ _ _)
  · refine .foldl (fun s x => ?_) _ _
    dsimp only
    split
    · exact (s.putMem_only _ _).trans (State.holdRange_only _ _ _ _ _)
    · exact ⟨_, _, _, _, _, rfl, id⟩

theorem State.visitMem_only (s : State) (d : Bool) (v : Via) (pa n : Nat) : OnlyHome s (s.visitMem d v pa n) := by
  unfold State.visitMem
  split
  · exact .foldl (fun u k => u.evictLine_only k) _ _
  · split
    · exact .foldl (fun u k => State.onLine_only State.clean_only u k) _ _
    · exact s.holdRange_only _ _ _ _

theorem State.visit_only (s : State) (d : Bool) (loc : Loc) (n : Nat) : OnlyHome s (s.visit d loc n) := by
  unfold State.visit
  split
  · exact s.visitMem_only _ _ _ _
  · exact (s.visitMem_only _ _ _ _).trans (State.visitMem_only _ _ _ _ _)
  · exact .refl s

@[simp] theorem State.writePhys_clock (s : State) (pa : Nat) (bs : List Byte) (cls : Nat) : (s.writePhys pa bs cls).clock = s.clock := by
  obtain ⟨_, _, _, _, _, h, _⟩ := s.writePhys_only pa bs cls
  rw [h]
@[simp] theorem State.writePhys_host (s : State) (pa : Nat) (bs : List Byte) (cls : Nat) : (s.writePhys pa bs cls).host = s.host := by
  obtain ⟨_, _, _, _, _, h, _⟩ := s.writePhys_only pa bs cls
  rw [h]
@[simp] theorem State.visit_host (s : State) (d : Bool) (loc : Loc) (n : Nat) : (s.visit d loc n).host = s.host := by
  obtain ⟨_, _, _, _, _, h, _⟩ := s.visit_only d loc n
  rw [h]
theorem OnlyHome.bad {s s' : State} (h : OnlyHome s s') (hb : s.bad = []) : s'.bad = [] := by
  obtain ⟨_, _, _, _, _, rfl, g⟩ := h
  exact g hb
theorem State.writePhys_bad {s : State} (pa : Nat) (bs : List Byte) (cls : Nat) (h : s.bad = []) : (s.writePhys pa bs cls).bad = [] :=
  (s.writePhys_only pa bs cls).bad h
theorem State.visit_bad {s : State} (d : Bool) (loc : Loc) (n : Nat) (h : s.bad = []) : (s.visit d loc n).bad = [] :=
  (s.visit_only d loc n).bad h

/-! ### Memory where the home slices agree with the vault cache -/

/-- With agreeing home slices, an access leaves memory and their agreement. -/
def KeepsMem (s s' : State) : Prop := HomeAgrees s → HomeAgrees s' ∧ s'.mem = s.mem

theorem KeepsMem.refl (s : State) : KeepsMem s s := fun h => ⟨h, rfl⟩

theorem KeepsMem.trans {a b c : State} (h : KeepsMem a b) (g : KeepsMem b c) : KeepsMem a c := fun ha =>
  ⟨(g (h ha).1).1, (g (h ha).1).2.trans (h ha).2⟩

theorem KeepsMem.foldl {α : Type} {f : State → α → State} (hf : ∀ s x, KeepsMem s (f s x)) (l : List α) (s : State) :
    KeepsMem s (l.foldl f s) := by
  induction l generalizing s with
  | nil => exact .refl s
  | cons x l ih => exact (hf s x).trans (ih _)

theorem HomeAgrees.homeOld {s : State} (h : HomeAgrees s) (k : Nat) : s.homeOld k = none := by
  unfold State.homeOld
  cases hf : s.home.find? (fun e => e.sector == k) with
  | none => rfl
  | some e => exact h e (List.mem_of_find?_eq_some hf)

/-- Every access reads what the vault cache has. -/
theorem HomeAgrees.homeBytes {s : State} (h : HomeAgrees s) (pa n : Nat) : s.homeBytes pa n = Cells.getMany s.mem pa n := by
  simp [State.homeBytes, h.homeOld]

theorem KeepsMem.ite {c : Bool} {s a b : State} (ha : KeepsMem s a) (hb : KeepsMem s b) : KeepsMem s (if c = true then a else b) := by
  split
  · exact ha
  · exact hb

/-- A sector joins its home slice as memory has it. -/
theorem KeepsMem.add (u : State) (g : HomeSector) (hg : g.old = none) : KeepsMem u { u with home := u.home ++ [g] } := fun h =>
  ⟨fun e he => (List.mem_append.1 he).elim (h e) (fun he => List.mem_singleton.1 he ▸ hg), rfl⟩

theorem State.evict_keeps (s : State) (k : Nat) : KeepsMem s (s.evict k) := by
  intro h
  unfold State.evict
  dsimp only
  split
  · next hf => cases h _ (List.mem_of_find?_eq_some hf)
  · exact ⟨fun e he => h e (List.mem_of_mem_filter he), rfl⟩

theorem State.clean_keeps (s : State) (k : Nat) : KeepsMem s (s.clean k) := by
  unfold State.clean
  split
  · exact (s.evict_keeps k).trans (.add _ _ rfl)
  · exact .refl s

theorem State.onLine_keeps {f : State → Nat → State} (hf : ∀ s k, KeepsMem s (f s k)) (s : State) (k : Nat) : KeepsMem s (s.onLine f k) :=
  KeepsMem.ite (.refl s) (.foldl (fun u _ => hf u _) _ _)

theorem State.evictLine_keeps (s : State) (k : Nat) : KeepsMem s (s.evictLine k) := State.onLine_keeps State.evict_keeps s k

theorem State.makeRoom_keeps (s : State) (k : Nat) : KeepsMem s (s.makeRoom k) := KeepsMem.ite (.refl s) (s.evictLine_keeps _)

theorem State.holdSector_keeps (s : State) (cls : Nat) (d : Bool) (k : Nat) : KeepsMem s (s.holdSector cls d k) := by
  unfold State.holdSector
  split
  · refine KeepsMem.ite (fun h => ⟨fun e he => ?_, rfl⟩) (.refl s)
    obtain ⟨x, hx, rfl⟩ := List.mem_map.1 he
    split <;> exact h x hx
  · exact (s.makeRoom_keeps k).trans (.add _ _ rfl)

theorem State.holdRange_keeps (s : State) (cls : Nat) (d : Bool) (pa n : Nat) : KeepsMem s (s.holdRange cls d pa n) :=
  KeepsMem.ite (.foldl (fun u k => u.holdSector_keeps _ _ k) _ _) (.refl s)

theorem State.visitMem_keeps (s : State) (d : Bool) (v : Via) (pa n : Nat) : KeepsMem s (s.visitMem d v pa n) := by
  unfold State.visitMem
  split
  · exact .foldl (fun u k => u.evictLine_keeps k) _ _
  · split
    · exact .foldl (fun u k => State.onLine_keeps State.clean_keeps u k) _ _
    · exact s.holdRange_keeps _ _ _ _

theorem State.visit_keeps (s : State) (d : Bool) (loc : Loc) (n : Nat) : KeepsMem s (s.visit d loc n) := by
  unfold State.visit
  split
  · exact s.visitMem_keeps _ _ _ _
  · exact (s.visitMem_keeps _ _ _ _).trans (State.visitMem_keeps _ _ _ _ _)
  · exact .refl s

/-- A store where the home slices agree: its bytes stand in memory, and they still agree. -/
theorem HomeAgrees.writePhys {s : State} (h : HomeAgrees s) (pa : Nat) (bs : List Byte) (cls : Nat) :
    HomeAgrees (s.writePhys pa bs cls) ∧ (s.writePhys pa bs cls).mem = Cells.setMany s.mem pa bs := by
  have hs : (sectorsOf pa bs.length).all (fun k => (s.homeOld k).isNone) = true := by simp [h.homeOld]
  have hp : HomeAgrees (s.putMem pa bs) := h
  simp only [State.writePhys, hs, if_true]
  exact State.holdRange_keeps _ _ _ _ _ hp

end Sys2Proof.Machine
end

