-- ==== Sys2Proof/Laws/State.lean ====
section
/-!
SUPPORT. What each update of a state, a block or a warp leaves: one lemma for a field and an update.
-/
namespace Sys2Proof.Machine


/-! ### `State.setBlock` -/

@[simp] theorem State.setBlock_mem (s : State) (c : Nat) (b : Block) : (s.setBlock c b).mem = s.mem := rfl
@[simp] theorem State.setBlock_clock (s : State) (c : Nat) (b : Block) : (s.setBlock c b).clock = s.clock := rfl
@[simp] theorem State.setBlock_tick (s : State) (c : Nat) (b : Block) : (s.setBlock c b).tick = s.tick := rfl
@[simp] theorem State.setBlock_next (s : State) (c : Nat) (b : Block) : (s.setBlock c b).next = s.next := rfl
@[simp] theorem State.setBlock_curCore (s : State) (c : Nat) (b : Block) : (s.setBlock c b).curCore = s.curCore := rfl
@[simp] theorem State.setBlock_curWarp (s : State) (c : Nat) (b : Block) : (s.setBlock c b).curWarp = s.curWarp := rfl
@[simp] theorem State.setBlock_grids (s : State) (c : Nat) (b : Block) : (s.setBlock c b).grids = s.grids := rfl
@[simp] theorem State.setBlock_savedCommits (s : State) (c : Nat) (b : Block) : (s.setBlock c b).savedCommits = s.savedCommits := rfl
@[simp] theorem State.setBlock_savedBlocks (s : State) (c : Nat) (b : Block) : (s.setBlock c b).savedBlocks = s.savedBlocks := rfl
@[simp] theorem State.setBlock_queueTimes (s : State) (c : Nat) (b : Block) : (s.setBlock c b).queueTimes = s.queueTimes := rfl
@[simp] theorem State.setBlock_cats (s : State) (c : Nat) (b : Block) : (s.setBlock c b).cats = s.cats := rfl
@[simp] theorem State.setBlock_travelling (s : State) (c : Nat) (b : Block) : (s.setBlock c b).travelling = s.travelling := rfl
@[simp] theorem State.setBlock_parked (s : State) (c : Nat) (b : Block) : (s.setBlock c b).parked = s.parked := rfl
@[simp] theorem State.setBlock_closes (s : State) (c : Nat) (b : Block) : (s.setBlock c b).closes = s.closes := rfl
@[simp] theorem State.setBlock_acks (s : State) (c : Nat) (b : Block) : (s.setBlock c b).acks = s.acks := rfl
@[simp] theorem State.setBlock_groups (s : State) (c : Nat) (b : Block) : (s.setBlock c b).groups = s.groups := rfl
@[simp] theorem State.setBlock_slots (s : State) (c : Nat) (b : Block) : (s.setBlock c b).slots = s.slots := rfl
@[simp] theorem State.setBlock_contributions (s : State) (c : Nat) (b : Block) : (s.setBlock c b).contributions = s.contributions := rfl
@[simp] theorem State.setBlock_heldContribs (s : State) (c : Nat) (b : Block) : (s.setBlock c b).heldContribs = s.heldContribs := rfl
@[simp] theorem State.setBlock_pullReqs (s : State) (c : Nat) (b : Block) : (s.setBlock c b).pullReqs = s.pullReqs := rfl
@[simp] theorem State.setBlock_netStores (s : State) (c : Nat) (b : Block) : (s.setBlock c b).netStores = s.netStores := rfl
@[simp] theorem State.setBlock_netLoads (s : State) (c : Nat) (b : Block) : (s.setBlock c b).netLoads = s.netLoads := rfl
@[simp] theorem State.setBlock_responses (s : State) (c : Nat) (b : Block) : (s.setBlock c b).responses = s.responses := rfl
@[simp] theorem State.setBlock_deliveries (s : State) (c : Nat) (b : Block) : (s.setBlock c b).deliveries = s.deliveries := rfl
@[simp] theorem State.setBlock_requests (s : State) (c : Nat) (b : Block) : (s.setBlock c b).requests = s.requests := rfl
@[simp] theorem State.setBlock_nextIdent (s : State) (c : Nat) (b : Block) : (s.setBlock c b).nextIdent = s.nextIdent := rfl
@[simp] theorem State.setBlock_devEvents (s : State) (c : Nat) (b : Block) : (s.setBlock c b).devEvents = s.devEvents := rfl
@[simp] theorem State.setBlock_tlb (s : State) (c : Nat) (b : Block) : (s.setBlock c b).tlb = s.tlb := rfl
@[simp] theorem State.setBlock_objCache (s : State) (c : Nat) (b : Block) : (s.setBlock c b).objCache = s.objCache := rfl
@[simp] theorem State.setBlock_objWritten (s : State) (c : Nat) (b : Block) : (s.setBlock c b).objWritten = s.objWritten := rfl
@[simp] theorem State.setBlock_objDropped (s : State) (c : Nat) (b : Block) : (s.setBlock c b).objDropped = s.objDropped := rfl
@[simp] theorem State.setBlock_early (s : State) (c : Nat) (b : Block) : (s.setBlock c b).early = s.early := rfl
@[simp] theorem State.setBlock_armedCoops (s : State) (c : Nat) (b : Block) : (s.setBlock c b).armedCoops = s.armedCoops := rfl
@[simp] theorem State.setBlock_descCache (s : State) (c : Nat) (b : Block) : (s.setBlock c b).descCache = s.descCache := rfl
@[simp] theorem State.setBlock_oldCode (s : State) (c : Nat) (b : Block) : (s.setBlock c b).oldCode = s.oldCode := rfl
@[simp] theorem State.setBlock_home (s : State) (c : Nat) (b : Block) : (s.setBlock c b).home = s.home := rfl
@[simp] theorem State.setBlock_pipes (s : State) (c : Nat) (b : Block) : (s.setBlock c b).pipes = s.pipes := rfl
@[simp] theorem State.setBlock_host (s : State) (c : Nat) (b : Block) : (s.setBlock c b).host = s.host := rfl
@[simp] theorem State.setBlock_service (s : State) (c : Nat) (b : Block) : (s.setBlock c b).service = s.service := rfl
@[simp] theorem State.setBlock_vchMode (s : State) (c : Nat) (b : Block) : (s.setBlock c b).vchMode = s.vchMode := rfl
@[simp] theorem State.setBlock_vchFp (s : State) (c : Nat) (b : Block) : (s.setBlock c b).vchFp = s.vchFp := rfl
@[simp] theorem State.setBlock_vchChange (s : State) (c : Nat) (b : Block) : (s.setBlock c b).vchChange = s.vchChange := rfl
@[simp] theorem State.setBlock_monitors (s : State) (c : Nat) (b : Block) : (s.setBlock c b).monitors = s.monitors := rfl
@[simp] theorem State.setBlock_measures (s : State) (c : Nat) (b : Block) : (s.setBlock c b).measures = s.measures := rfl
@[simp] theorem State.setBlock_bad (s : State) (c : Nat) (b : Block) : (s.setBlock c b).bad = s.bad := rfl

/-! ### The view -/

@[simp] theorem View.setW_dev (t : View) (w : Warp) : (t.setW w).dev = t.dev := rfl
@[simp] theorem View.setW_core (t : View) (w : Warp) : (t.setW w).core = t.core := rfl
@[simp] theorem View.setW_blk (t : View) (w : Warp) : (t.setW w).blk = t.blk := rfl
@[simp] theorem View.setW_cl (t : View) (w : Warp) : (t.setW w).cl = t.cl := rfl
@[simp] theorem View.setW_w (t : View) (w : Warp) : (t.setW w).w = w := rfl
@[simp] theorem View.setB_dev (t : View) (b : Block) : (t.setB b).dev = t.dev := rfl
@[simp] theorem View.setB_core (t : View) (b : Block) : (t.setB b).core = t.core := rfl
@[simp] theorem View.setB_w (t : View) (b : Block) : (t.setB b).w = t.w := rfl
@[simp] theorem View.setB_cl (t : View) (b : Block) : (t.setB b).cl = t.cl := rfl
@[simp] theorem View.setB_blk (t : View) (b : Block) : (t.setB b).blk = b := rfl
@[simp] theorem View.close_mem (t : View) : t.close.mem = t.dev.mem := rfl
@[simp] theorem View.close_clock (t : View) : t.close.clock = t.dev.clock := rfl
@[simp] theorem View.close_tick (t : View) : t.close.tick = t.dev.tick := rfl
@[simp] theorem View.close_next (t : View) : t.close.next = t.dev.next := rfl
@[simp] theorem View.close_curCore (t : View) : t.close.curCore = t.dev.curCore := rfl
@[simp] theorem View.close_curWarp (t : View) : t.close.curWarp = t.dev.curWarp := rfl
@[simp] theorem View.close_grids (t : View) : t.close.grids = t.dev.grids := rfl
@[simp] theorem View.close_savedCommits (t : View) : t.close.savedCommits = t.dev.savedCommits := rfl
@[simp] theorem View.close_savedBlocks (t : View) : t.close.savedBlocks = t.dev.savedBlocks := rfl
@[simp] theorem View.close_queueTimes (t : View) : t.close.queueTimes = t.dev.queueTimes := rfl
@[simp] theorem View.close_cats (t : View) : t.close.cats = t.dev.cats := rfl
@[simp] theorem View.close_travelling (t : View) : t.close.travelling = t.dev.travelling := rfl
@[simp] theorem View.close_parked (t : View) : t.close.parked = t.dev.parked := rfl
@[simp] theorem View.close_closes (t : View) : t.close.closes = t.dev.closes := rfl
@[simp] theorem View.close_acks (t : View) : t.close.acks = t.dev.acks := rfl
@[simp] theorem View.close_groups (t : View) : t.close.groups = t.dev.groups := rfl
@[simp] theorem View.close_slots (t : View) : t.close.slots = t.dev.slots := rfl
@[simp] theorem View.close_contributions (t : View) : t.close.contributions = t.dev.contributions := rfl
@[simp] theorem View.close_heldContribs (t : View) : t.close.heldContribs = t.dev.heldContribs := rfl
@[simp] theorem View.close_pullReqs (t : View) : t.close.pullReqs = t.dev.pullReqs := rfl
@[simp] theorem View.close_netStores (t : View) : t.close.netStores = t.dev.netStores := rfl
@[simp] theorem View.close_netLoads (t : View) : t.close.netLoads = t.dev.netLoads := rfl
@[simp] theorem View.close_responses (t : View) : t.close.responses = t.dev.responses := rfl
@[simp] theorem View.close_deliveries (t : View) : t.close.deliveries = t.dev.deliveries := rfl
@[simp] theorem View.close_requests (t : View) : t.close.requests = t.dev.requests := rfl
@[simp] theorem View.close_nextIdent (t : View) : t.close.nextIdent = t.dev.nextIdent := rfl
@[simp] theorem View.close_devEvents (t : View) : t.close.devEvents = t.dev.devEvents := rfl
@[simp] theorem View.close_tlb (t : View) : t.close.tlb = t.dev.tlb := rfl
@[simp] theorem View.close_objCache (t : View) : t.close.objCache = t.dev.objCache := rfl
@[simp] theorem View.close_objWritten (t : View) : t.close.objWritten = t.dev.objWritten := rfl
@[simp] theorem View.close_objDropped (t : View) : t.close.objDropped = t.dev.objDropped := rfl
@[simp] theorem View.close_early (t : View) : t.close.early = t.dev.early := rfl
@[simp] theorem View.close_armedCoops (t : View) : t.close.armedCoops = t.dev.armedCoops := rfl
@[simp] theorem View.close_descCache (t : View) : t.close.descCache = t.dev.descCache := rfl
@[simp] theorem View.close_oldCode (t : View) : t.close.oldCode = t.dev.oldCode := rfl
@[simp] theorem View.close_home (t : View) : t.close.home = t.dev.home := rfl
@[simp] theorem View.close_pipes (t : View) : t.close.pipes = t.dev.pipes := rfl
@[simp] theorem View.close_host (t : View) : t.close.host = t.dev.host := rfl
@[simp] theorem View.close_service (t : View) : t.close.service = t.dev.service := rfl
@[simp] theorem View.close_vchMode (t : View) : t.close.vchMode = t.dev.vchMode := rfl
@[simp] theorem View.close_vchFp (t : View) : t.close.vchFp = t.dev.vchFp := rfl
@[simp] theorem View.close_vchChange (t : View) : t.close.vchChange = t.dev.vchChange := rfl
@[simp] theorem View.close_monitors (t : View) : t.close.monitors = t.dev.monitors := rfl
@[simp] theorem View.close_measures (t : View) : t.close.measures = t.dev.measures := rfl
@[simp] theorem View.close_bad (t : View) : t.close.bad = t.dev.bad := rfl

/-! ### Registers -/

@[simp] theorem Warp.wv_num (w : Warp) (r l : Nat) (x : Word32) : (w.wv r l x).num = w.num := rfl
@[simp] theorem Warp.wv_life (w : Warp) (r l : Nat) (x : Word32) : (w.wv r l x).life = w.life := rfl
@[simp] theorem Warp.wv_started (w : Warp) (r l : Nat) (x : Word32) : (w.wv r l x).started = w.started := rfl
@[simp] theorem Warp.wv_ring (w : Warp) (r l : Nat) (x : Word32) : (w.wv r l x).ring = w.ring := rfl
@[simp] theorem Warp.wv_depth (w : Warp) (r l : Nat) (x : Word32) : (w.wv r l x).depth = w.depth := rfl
@[simp] theorem Warp.wv_hw (w : Warp) (r l : Nat) (x : Word32) : (w.wv r l x).hw = w.hw := rfl
@[simp] theorem Warp.wv_frame (w : Warp) (r l : Nat) (x : Word32) : (w.wv r l x).frame = w.frame := rfl
@[simp] theorem Warp.wv_clause (w : Warp) (r l : Nat) (x : Word32) : (w.wv r l x).clause = w.clause := rfl
@[simp] theorem Warp.wv_s (w : Warp) (r l : Nat) (x : Word32) : (w.wv r l x).s = w.s := rfl
@[simp] theorem Warp.wv_p (w : Warp) (r l : Nat) (x : Word32) : (w.wv r l x).p = w.p := rfl
@[simp] theorem Warp.wv_fpflags (w : Warp) (r l : Nat) (x : Word32) : (w.wv r l x).fpflags = w.fpflags := rfl
@[simp] theorem Warp.wv_satflag (w : Warp) (r l : Nat) (x : Word32) : (w.wv r l x).satflag = w.satflag := rfl
@[simp] theorem Warp.wv_fs (w : Warp) (r l : Nat) (x : Word32) : (w.wv r l x).fs = w.fs := rfl
@[simp] theorem Warp.wv_enrol (w : Warp) (r l : Nat) (x : Word32) : (w.wv r l x).enrol = w.enrol := rfl
@[simp] theorem Warp.wv_counters (w : Warp) (r l : Nat) (x : Word32) : (w.wv r l x).counters = w.counters := rfl
@[simp] theorem Warp.wv_slices (w : Warp) (r l : Nat) (x : Word32) : (w.wv r l x).slices = w.slices := rfl
@[simp] theorem Warp.wv_desc (w : Warp) (r l : Nat) (x : Word32) : (w.wv r l x).desc = w.desc := rfl
@[simp] theorem Warp.wv_ckpt (w : Warp) (r l : Nat) (x : Word32) : (w.wv r l x).ckpt = w.ckpt := rfl
@[simp] theorem Warp.wv_tent (w : Warp) (r l : Nat) (x : Word32) : (w.wv r l x).tent = w.tent := rfl
@[simp] theorem Warp.wv_pushes (w : Warp) (r l : Nat) (x : Word32) : (w.wv r l x).pushes = w.pushes := rfl
@[simp] theorem Warp.wv_held (w : Warp) (r l : Nat) (x : Word32) : (w.wv r l x).held = w.held := rfl
@[simp] theorem Warp.wv_seq (w : Warp) (r l : Nat) (x : Word32) : (w.wv r l x).seq = w.seq := rfl
@[simp] theorem Warp.wv_loads (w : Warp) (r l : Nat) (x : Word32) : (w.wv r l x).loads = w.loads := rfl
@[simp] theorem Warp.wv_buf (w : Warp) (r l : Nat) (x : Word32) : (w.wv r l x).buf = w.buf := rfl
@[simp] theorem Warp.wv_fence (w : Warp) (r l : Nat) (x : Word32) : (w.wv r l x).fence = w.fence := rfl
@[simp] theorem Warp.wv_ops (w : Warp) (r l : Nat) (x : Word32) : (w.wv r l x).ops = w.ops := rfl
@[simp] theorem Warp.wv_outst (w : Warp) (r l : Nat) (x : Word32) : (w.wv r l x).outst = w.outst := rfl
@[simp] theorem Warp.wv_waiting (w : Warp) (r l : Nat) (x : Word32) : (w.wv r l x).waiting = w.waiting := rfl
@[simp] theorem Warp.wv_wait (w : Warp) (r l : Nat) (x : Word32) : (w.wv r l x).wait = w.wait := rfl
@[simp] theorem Warp.wv_lastIssue (w : Warp) (r l : Nat) (x : Word32) : (w.wv r l x).lastIssue = w.lastIssue := rfl
@[simp] theorem Warp.wv_polledAt (w : Warp) (r l : Nat) (x : Word32) : (w.wv r l x).polledAt = w.polledAt := rfl
@[simp] theorem Warp.wv_yielded (w : Warp) (r l : Nat) (x : Word32) : (w.wv r l x).yielded = w.yielded := rfl
@[simp] theorem Warp.wv_plan (w : Warp) (r l : Nat) (x : Word32) : (w.wv r l x).plan = w.plan := rfl
@[simp] theorem Warp.wv_ahead (w : Warp) (r l : Nat) (x : Word32) : (w.wv r l x).ahead = w.ahead := rfl
@[simp] theorem Warp.wv_stop (w : Warp) (r l : Nat) (x : Word32) : (w.wv r l x).stop = w.stop := rfl
@[simp] theorem Warp.wv_askedAt (w : Warp) (r l : Nat) (x : Word32) : (w.wv r l x).askedAt = w.askedAt := rfl
@[simp] theorem Warp.wv_faultWait (w : Warp) (r l : Nat) (x : Word32) : (w.wv r l x).faultWait = w.faultWait := rfl
@[simp] theorem Warp.wv_faultSince (w : Warp) (r l : Nat) (x : Word32) : (w.wv r l x).faultSince = w.faultSince := rfl
@[simp] theorem Warp.wv_backCount (w : Warp) (r l : Nat) (x : Word32) : (w.wv r l x).backCount = w.backCount := rfl
@[simp] theorem Warp.wv_jobFault (w : Warp) (r l : Nat) (x : Word32) : (w.wv r l x).jobFault = w.jobFault := rfl
@[simp] theorem Warp.wv_dead (w : Warp) (r l : Nat) (x : Word32) : (w.wv r l x).dead = w.dead := rfl
@[simp] theorem Warp.ws_num (w : Warp) (n : Nat) (x : Word64) : (w.ws n x).num = w.num := by unfold Warp.ws; split <;> rfl
@[simp] theorem Warp.ws_life (w : Warp) (n : Nat) (x : Word64) : (w.ws n x).life = w.life := by unfold Warp.ws; split <;> rfl
@[simp] theorem Warp.ws_started (w : Warp) (n : Nat) (x : Word64) : (w.ws n x).started = w.started := by unfold Warp.ws; split <;> rfl
@[simp] theorem Warp.ws_ring (w : Warp) (n : Nat) (x : Word64) : (w.ws n x).ring = w.ring := by unfold Warp.ws; split <;> rfl
@[simp] theorem Warp.ws_depth (w : Warp) (n : Nat) (x : Word64) : (w.ws n x).depth = w.depth := by unfold Warp.ws; split <;> rfl
@[simp] theorem Warp.ws_hw (w : Warp) (n : Nat) (x : Word64) : (w.ws n x).hw = w.hw := by unfold Warp.ws; split <;> rfl
@[simp] theorem Warp.ws_frame (w : Warp) (n : Nat) (x : Word64) : (w.ws n x).frame = w.frame := by unfold Warp.ws; split <;> rfl
@[simp] theorem Warp.ws_clause (w : Warp) (n : Nat) (x : Word64) : (w.ws n x).clause = w.clause := by unfold Warp.ws; split <;> rfl
@[simp] theorem Warp.ws_v (w : Warp) (n : Nat) (x : Word64) : (w.ws n x).v = w.v := by unfold Warp.ws; split <;> rfl
@[simp] theorem Warp.ws_p (w : Warp) (n : Nat) (x : Word64) : (w.ws n x).p = w.p := by unfold Warp.ws; split <;> rfl
@[simp] theorem Warp.ws_fpflags (w : Warp) (n : Nat) (x : Word64) : (w.ws n x).fpflags = w.fpflags := by unfold Warp.ws; split <;> rfl
@[simp] theorem Warp.ws_satflag (w : Warp) (n : Nat) (x : Word64) : (w.ws n x).satflag = w.satflag := by unfold Warp.ws; split <;> rfl
@[simp] theorem Warp.ws_fs (w : Warp) (n : Nat) (x : Word64) : (w.ws n x).fs = w.fs := by unfold Warp.ws; split <;> rfl
@[simp] theorem Warp.ws_enrol (w : Warp) (n : Nat) (x : Word64) : (w.ws n x).enrol = w.enrol := by unfold Warp.ws; split <;> rfl
@[simp] theorem Warp.ws_counters (w : Warp) (n : Nat) (x : Word64) : (w.ws n x).counters = w.counters := by unfold Warp.ws; split <;> rfl
@[simp] theorem Warp.ws_slices (w : Warp) (n : Nat) (x : Word64) : (w.ws n x).slices = w.slices := by unfold Warp.ws; split <;> rfl
@[simp] theorem Warp.ws_desc (w : Warp) (n : Nat) (x : Word64) : (w.ws n x).desc = w.desc := by unfold Warp.ws; split <;> rfl
@[simp] theorem Warp.ws_ckpt (w : Warp) (n : Nat) (x : Word64) : (w.ws n x).ckpt = w.ckpt := by unfold Warp.ws; split <;> rfl
@[simp] theorem Warp.ws_tent (w : Warp) (n : Nat) (x : Word64) : (w.ws n x).tent = w.tent := by unfold Warp.ws; split <;> rfl
@[simp] theorem Warp.ws_pushes (w : Warp) (n : Nat) (x : Word64) : (w.ws n x).pushes = w.pushes := by unfold Warp.ws; split <;> rfl
@[simp] theorem Warp.ws_held (w : Warp) (n : Nat) (x : Word64) : (w.ws n x).held = w.held := by unfold Warp.ws; split <;> rfl
@[simp] theorem Warp.ws_seq (w : Warp) (n : Nat) (x : Word64) : (w.ws n x).seq = w.seq := by unfold Warp.ws; split <;> rfl
@[simp] theorem Warp.ws_loads (w : Warp) (n : Nat) (x : Word64) : (w.ws n x).loads = w.loads := by unfold Warp.ws; split <;> rfl
@[simp] theorem Warp.ws_buf (w : Warp) (n : Nat) (x : Word64) : (w.ws n x).buf = w.buf := by unfold Warp.ws; split <;> rfl
@[simp] theorem Warp.ws_fence (w : Warp) (n : Nat) (x : Word64) : (w.ws n x).fence = w.fence := by unfold Warp.ws; split <;> rfl
@[simp] theorem Warp.ws_ops (w : Warp) (n : Nat) (x : Word64) : (w.ws n x).ops = w.ops := by unfold Warp.ws; split <;> rfl
@[simp] theorem Warp.ws_outst (w : Warp) (n : Nat) (x : Word64) : (w.ws n x).outst = w.outst := by unfold Warp.ws; split <;> rfl
@[simp] theorem Warp.ws_waiting (w : Warp) (n : Nat) (x : Word64) : (w.ws n x).waiting = w.waiting := by unfold Warp.ws; split <;> rfl
@[simp] theorem Warp.ws_wait (w : Warp) (n : Nat) (x : Word64) : (w.ws n x).wait = w.wait := by unfold Warp.ws; split <;> rfl
@[simp] theorem Warp.ws_lastIssue (w : Warp) (n : Nat) (x : Word64) : (w.ws n x).lastIssue = w.lastIssue := by unfold Warp.ws; split <;> rfl
@[simp] theorem Warp.ws_polledAt (w : Warp) (n : Nat) (x : Word64) : (w.ws n x).polledAt = w.polledAt := by unfold Warp.ws; split <;> rfl
@[simp] theorem Warp.ws_yielded (w : Warp) (n : Nat) (x : Word64) : (w.ws n x).yielded = w.yielded := by unfold Warp.ws; split <;> rfl
@[simp] theorem Warp.ws_plan (w : Warp) (n : Nat) (x : Word64) : (w.ws n x).plan = w.plan := by unfold Warp.ws; split <;> rfl
@[simp] theorem Warp.ws_ahead (w : Warp) (n : Nat) (x : Word64) : (w.ws n x).ahead = w.ahead := by unfold Warp.ws; split <;> rfl
@[simp] theorem Warp.ws_stop (w : Warp) (n : Nat) (x : Word64) : (w.ws n x).stop = w.stop := by unfold Warp.ws; split <;> rfl
@[simp] theorem Warp.ws_askedAt (w : Warp) (n : Nat) (x : Word64) : (w.ws n x).askedAt = w.askedAt := by unfold Warp.ws; split <;> rfl
@[simp] theorem Warp.ws_faultWait (w : Warp) (n : Nat) (x : Word64) : (w.ws n x).faultWait = w.faultWait := by unfold Warp.ws; split <;> rfl
@[simp] theorem Warp.ws_faultSince (w : Warp) (n : Nat) (x : Word64) : (w.ws n x).faultSince = w.faultSince := by unfold Warp.ws; split <;> rfl
@[simp] theorem Warp.ws_backCount (w : Warp) (n : Nat) (x : Word64) : (w.ws n x).backCount = w.backCount := by unfold Warp.ws; split <;> rfl
@[simp] theorem Warp.ws_jobFault (w : Warp) (n : Nat) (x : Word64) : (w.ws n x).jobFault = w.jobFault := by unfold Warp.ws; split <;> rfl
@[simp] theorem Warp.ws_dead (w : Warp) (n : Nat) (x : Word64) : (w.ws n x).dead = w.dead := by unfold Warp.ws; split <;> rfl
@[simp] theorem Warp.wp_num (w : Warp) (n : Nat) (m x : Word32) : (w.wp n m x).num = w.num := by unfold Warp.wp; split <;> rfl
@[simp] theorem Warp.wp_life (w : Warp) (n : Nat) (m x : Word32) : (w.wp n m x).life = w.life := by unfold Warp.wp; split <;> rfl
@[simp] theorem Warp.wp_started (w : Warp) (n : Nat) (m x : Word32) : (w.wp n m x).started = w.started := by unfold Warp.wp; split <;> rfl
@[simp] theorem Warp.wp_ring (w : Warp) (n : Nat) (m x : Word32) : (w.wp n m x).ring = w.ring := by unfold Warp.wp; split <;> rfl
@[simp] theorem Warp.wp_depth (w : Warp) (n : Nat) (m x : Word32) : (w.wp n m x).depth = w.depth := by unfold Warp.wp; split <;> rfl
@[simp] theorem Warp.wp_hw (w : Warp) (n : Nat) (m x : Word32) : (w.wp n m x).hw = w.hw := by unfold Warp.wp; split <;> rfl
@[simp] theorem Warp.wp_frame (w : Warp) (n : Nat) (m x : Word32) : (w.wp n m x).frame = w.frame := by unfold Warp.wp; split <;> rfl
@[simp] theorem Warp.wp_clause (w : Warp) (n : Nat) (m x : Word32) : (w.wp n m x).clause = w.clause := by unfold Warp.wp; split <;> rfl
@[simp] theorem Warp.wp_v (w : Warp) (n : Nat) (m x : Word32) : (w.wp n m x).v = w.v := by unfold Warp.wp; split <;> rfl
@[simp] theorem Warp.wp_s (w : Warp) (n : Nat) (m x : Word32) : (w.wp n m x).s = w.s := by unfold Warp.wp; split <;> rfl
@[simp] theorem Warp.wp_fpflags (w : Warp) (n : Nat) (m x : Word32) : (w.wp n m x).fpflags = w.fpflags := by unfold Warp.wp; split <;> rfl
@[simp] theorem Warp.wp_satflag (w : Warp) (n : Nat) (m x : Word32) : (w.wp n m x).satflag = w.satflag := by unfold Warp.wp; split <;> rfl
@[simp] theorem Warp.wp_fs (w : Warp) (n : Nat) (m x : Word32) : (w.wp n m x).fs = w.fs := by unfold Warp.wp; split <;> rfl
@[simp] theorem Warp.wp_enrol (w : Warp) (n : Nat) (m x : Word32) : (w.wp n m x).enrol = w.enrol := by unfold Warp.wp; split <;> rfl
@[simp] theorem Warp.wp_counters (w : Warp) (n : Nat) (m x : Word32) : (w.wp n m x).counters = w.counters := by unfold Warp.wp; split <;> rfl
@[simp] theorem Warp.wp_slices (w : Warp) (n : Nat) (m x : Word32) : (w.wp n m x).slices = w.slices := by unfold Warp.wp; split <;> rfl
@[simp] theorem Warp.wp_desc (w : Warp) (n : Nat) (m x : Word32) : (w.wp n m x).desc = w.desc := by unfold Warp.wp; split <;> rfl
@[simp] theorem Warp.wp_ckpt (w : Warp) (n : Nat) (m x : Word32) : (w.wp n m x).ckpt = w.ckpt := by unfold Warp.wp; split <;> rfl
@[simp] theorem Warp.wp_tent (w : Warp) (n : Nat) (m x : Word32) : (w.wp n m x).tent = w.tent := by unfold Warp.wp; split <;> rfl
@[simp] theorem Warp.wp_pushes (w : Warp) (n : Nat) (m x : Word32) : (w.wp n m x).pushes = w.pushes := by unfold Warp.wp; split <;> rfl
@[simp] theorem Warp.wp_held (w : Warp) (n : Nat) (m x : Word32) : (w.wp n m x).held = w.held := by unfold Warp.wp; split <;> rfl
@[simp] theorem Warp.wp_seq (w : Warp) (n : Nat) (m x : Word32) : (w.wp n m x).seq = w.seq := by unfold Warp.wp; split <;> rfl
@[simp] theorem Warp.wp_loads (w : Warp) (n : Nat) (m x : Word32) : (w.wp n m x).loads = w.loads := by unfold Warp.wp; split <;> rfl
@[simp] theorem Warp.wp_buf (w : Warp) (n : Nat) (m x : Word32) : (w.wp n m x).buf = w.buf := by unfold Warp.wp; split <;> rfl
@[simp] theorem Warp.wp_fence (w : Warp) (n : Nat) (m x : Word32) : (w.wp n m x).fence = w.fence := by unfold Warp.wp; split <;> rfl
@[simp] theorem Warp.wp_ops (w : Warp) (n : Nat) (m x : Word32) : (w.wp n m x).ops = w.ops := by unfold Warp.wp; split <;> rfl
@[simp] theorem Warp.wp_outst (w : Warp) (n : Nat) (m x : Word32) : (w.wp n m x).outst = w.outst := by unfold Warp.wp; split <;> rfl
@[simp] theorem Warp.wp_waiting (w : Warp) (n : Nat) (m x : Word32) : (w.wp n m x).waiting = w.waiting := by unfold Warp.wp; split <;> rfl
@[simp] theorem Warp.wp_wait (w : Warp) (n : Nat) (m x : Word32) : (w.wp n m x).wait = w.wait := by unfold Warp.wp; split <;> rfl
@[simp] theorem Warp.wp_lastIssue (w : Warp) (n : Nat) (m x : Word32) : (w.wp n m x).lastIssue = w.lastIssue := by unfold Warp.wp; split <;> rfl
@[simp] theorem Warp.wp_polledAt (w : Warp) (n : Nat) (m x : Word32) : (w.wp n m x).polledAt = w.polledAt := by unfold Warp.wp; split <;> rfl
@[simp] theorem Warp.wp_yielded (w : Warp) (n : Nat) (m x : Word32) : (w.wp n m x).yielded = w.yielded := by unfold Warp.wp; split <;> rfl
@[simp] theorem Warp.wp_plan (w : Warp) (n : Nat) (m x : Word32) : (w.wp n m x).plan = w.plan := by unfold Warp.wp; split <;> rfl
@[simp] theorem Warp.wp_ahead (w : Warp) (n : Nat) (m x : Word32) : (w.wp n m x).ahead = w.ahead := by unfold Warp.wp; split <;> rfl
@[simp] theorem Warp.wp_stop (w : Warp) (n : Nat) (m x : Word32) : (w.wp n m x).stop = w.stop := by unfold Warp.wp; split <;> rfl
@[simp] theorem Warp.wp_askedAt (w : Warp) (n : Nat) (m x : Word32) : (w.wp n m x).askedAt = w.askedAt := by unfold Warp.wp; split <;> rfl
@[simp] theorem Warp.wp_faultWait (w : Warp) (n : Nat) (m x : Word32) : (w.wp n m x).faultWait = w.faultWait := by unfold Warp.wp; split <;> rfl
@[simp] theorem Warp.wp_faultSince (w : Warp) (n : Nat) (m x : Word32) : (w.wp n m x).faultSince = w.faultSince := by unfold Warp.wp; split <;> rfl
@[simp] theorem Warp.wp_backCount (w : Warp) (n : Nat) (m x : Word32) : (w.wp n m x).backCount = w.backCount := by unfold Warp.wp; split <;> rfl
@[simp] theorem Warp.wp_jobFault (w : Warp) (n : Nat) (m x : Word32) : (w.wp n m x).jobFault = w.jobFault := by unfold Warp.wp; split <;> rfl
@[simp] theorem Warp.wp_dead (w : Warp) (n : Nat) (m x : Word32) : (w.wp n m x).dead = w.dead := by unfold Warp.wp; split <;> rfl

/-! ### Counters -/

@[simp] theorem Warp.count_num (w : Warp) (k n : Nat) : (w.count k n).num = w.num := rfl
@[simp] theorem Warp.count_life (w : Warp) (k n : Nat) : (w.count k n).life = w.life := rfl
@[simp] theorem Warp.count_started (w : Warp) (k n : Nat) : (w.count k n).started = w.started := rfl
@[simp] theorem Warp.count_ring (w : Warp) (k n : Nat) : (w.count k n).ring = w.ring := rfl
@[simp] theorem Warp.count_depth (w : Warp) (k n : Nat) : (w.count k n).depth = w.depth := rfl
@[simp] theorem Warp.count_hw (w : Warp) (k n : Nat) : (w.count k n).hw = w.hw := rfl
@[simp] theorem Warp.count_frame (w : Warp) (k n : Nat) : (w.count k n).frame = w.frame := rfl
@[simp] theorem Warp.count_clause (w : Warp) (k n : Nat) : (w.count k n).clause = w.clause := rfl
@[simp] theorem Warp.count_v (w : Warp) (k n : Nat) : (w.count k n).v = w.v := rfl
@[simp] theorem Warp.count_s (w : Warp) (k n : Nat) : (w.count k n).s = w.s := rfl
@[simp] theorem Warp.count_p (w : Warp) (k n : Nat) : (w.count k n).p = w.p := rfl
@[simp] theorem Warp.count_fpflags (w : Warp) (k n : Nat) : (w.count k n).fpflags = w.fpflags := rfl
@[simp] theorem Warp.count_satflag (w : Warp) (k n : Nat) : (w.count k n).satflag = w.satflag := rfl
@[simp] theorem Warp.count_fs (w : Warp) (k n : Nat) : (w.count k n).fs = w.fs := rfl
@[simp] theorem Warp.count_enrol (w : Warp) (k n : Nat) : (w.count k n).enrol = w.enrol := rfl
@[simp] theorem Warp.count_slices (w : Warp) (k n : Nat) : (w.count k n).slices = w.slices := rfl
@[simp] theorem Warp.count_desc (w : Warp) (k n : Nat) : (w.count k n).desc = w.desc := rfl
@[simp] theorem Warp.count_ckpt (w : Warp) (k n : Nat) : (w.count k n).ckpt = w.ckpt := rfl
@[simp] theorem Warp.count_tent (w : Warp) (k n : Nat) : (w.count k n).tent = w.tent := rfl
@[simp] theorem Warp.count_pushes (w : Warp) (k n : Nat) : (w.count k n).pushes = w.pushes := rfl
@[simp] theorem Warp.count_held (w : Warp) (k n : Nat) : (w.count k n).held = w.held := rfl
@[simp] theorem Warp.count_seq (w : Warp) (k n : Nat) : (w.count k n).seq = w.seq := rfl
@[simp] theorem Warp.count_loads (w : Warp) (k n : Nat) : (w.count k n).loads = w.loads := rfl
@[simp] theorem Warp.count_buf (w : Warp) (k n : Nat) : (w.count k n).buf = w.buf := rfl
@[simp] theorem Warp.count_fence (w : Warp) (k n : Nat) : (w.count k n).fence = w.fence := rfl
@[simp] theorem Warp.count_ops (w : Warp) (k n : Nat) : (w.count k n).ops = w.ops := rfl
@[simp] theorem Warp.count_outst (w : Warp) (k n : Nat) : (w.count k n).outst = w.outst := rfl
@[simp] theorem Warp.count_waiting (w : Warp) (k n : Nat) : (w.count k n).waiting = w.waiting := rfl
@[simp] theorem Warp.count_wait (w : Warp) (k n : Nat) : (w.count k n).wait = w.wait := rfl
@[simp] theorem Warp.count_lastIssue (w : Warp) (k n : Nat) : (w.count k n).lastIssue = w.lastIssue := rfl
@[simp] theorem Warp.count_polledAt (w : Warp) (k n : Nat) : (w.count k n).polledAt = w.polledAt := rfl
@[simp] theorem Warp.count_yielded (w : Warp) (k n : Nat) : (w.count k n).yielded = w.yielded := rfl
@[simp] theorem Warp.count_plan (w : Warp) (k n : Nat) : (w.count k n).plan = w.plan := rfl
@[simp] theorem Warp.count_ahead (w : Warp) (k n : Nat) : (w.count k n).ahead = w.ahead := rfl
@[simp] theorem Warp.count_stop (w : Warp) (k n : Nat) : (w.count k n).stop = w.stop := rfl
@[simp] theorem Warp.count_askedAt (w : Warp) (k n : Nat) : (w.count k n).askedAt = w.askedAt := rfl
@[simp] theorem Warp.count_faultWait (w : Warp) (k n : Nat) : (w.count k n).faultWait = w.faultWait := rfl
@[simp] theorem Warp.count_faultSince (w : Warp) (k n : Nat) : (w.count k n).faultSince = w.faultSince := rfl
@[simp] theorem Warp.count_backCount (w : Warp) (k n : Nat) : (w.count k n).backCount = w.backCount := rfl
@[simp] theorem Warp.count_jobFault (w : Warp) (k n : Nat) : (w.count k n).jobFault = w.jobFault := rfl
@[simp] theorem Warp.count_dead (w : Warp) (k n : Nat) : (w.count k n).dead = w.dead := rfl

/-! ### `Block.setWarp` -/

@[simp] theorem Block.setWarp_launch (b : Block) (w : Warp) : (b.setWarp w).launch = b.launch := rfl
@[simp] theorem Block.setWarp_staggered (b : Block) (w : Warp) : (b.setWarp w).staggered = b.staggered := rfl
@[simp] theorem Block.setWarp_bankMode (b : Block) (w : Warp) : (b.setWarp w).bankMode = b.bankMode := rfl
@[simp] theorem Block.setWarp_bankChanges (b : Block) (w : Warp) : (b.setWarp w).bankChanges = b.bankChanges := rfl
@[simp] theorem Block.setWarp_rwperm (b : Block) (w : Warp) : (b.setWarp w).rwperm = b.rwperm := rfl
@[simp] theorem Block.setWarp_rwLast (b : Block) (w : Warp) : (b.setWarp w).rwLast = b.rwLast := rfl
@[simp] theorem Block.setWarp_stagger (b : Block) (w : Warp) : (b.setWarp w).stagger = b.stagger := rfl
@[simp] theorem Block.setWarp_scratch (b : Block) (w : Warp) : (b.setWarp w).scratch = b.scratch := rfl
@[simp] theorem Block.setWarp_fifo (b : Block) (w : Warp) : (b.setWarp w).fifo = b.fifo := rfl
@[simp] theorem Block.setWarp_fifoWait (b : Block) (w : Warp) : (b.setWarp w).fifoWait = b.fifoWait := rfl
@[simp] theorem Block.setWarp_handles (b : Block) (w : Warp) : (b.setWarp w).handles = b.handles := rfl
@[simp] theorem Block.setWarp_slots (b : Block) (w : Warp) : (b.setWarp w).slots = b.slots := rfl
@[simp] theorem Block.setWarp_array (b : Block) (w : Warp) : (b.setWarp w).array = b.array := rfl
@[simp] theorem Block.setWarp_jobs (b : Block) (w : Warp) : (b.setWarp w).jobs = b.jobs := rfl
@[simp] theorem Block.setWarp_rules (b : Block) (w : Warp) : (b.setWarp w).rules = b.rules := rfl
@[simp] theorem Block.setWarp_log (b : Block) (w : Warp) : (b.setWarp w).log = b.log := rfl
@[simp] theorem Block.setWarp_tag (b : Block) (w : Warp) : (b.setWarp w).tag = b.tag := rfl
@[simp] theorem Block.setWarp_pendingTags (b : Block) (w : Warp) : (b.setWarp w).pendingTags = b.pendingTags := rfl
@[simp] theorem Block.setWarp_commit (b : Block) (w : Warp) : (b.setWarp w).commit = b.commit := rfl
@[simp] theorem Block.setWarp_counters (b : Block) (w : Warp) : (b.setWarp w).counters = b.counters := rfl
@[simp] theorem Block.setWarp_quads (b : Block) (w : Warp) : (b.setWarp w).quads = b.quads := rfl
@[simp] theorem Block.setWarp_xqueues (b : Block) (w : Warp) : (b.setWarp w).xqueues = b.xqueues := rfl
@[simp] theorem Block.setWarp_xpipe (b : Block) (w : Warp) : (b.setWarp w).xpipe = b.xpipe := rfl
@[simp] theorem Block.setWarp_stopReq (b : Block) (w : Warp) : (b.setWarp w).stopReq = b.stopReq := rfl

end Sys2Proof.Machine
end

