-- ==== Sys2Proof/Laws/Issue.lean ====
section
/-!
SUPPORT. What issuing an instruction can do: one lemma for each way its own operation ends.
-/
namespace Sys2Proof.Machine

/-- What an instruction that runs has met: no wait, no hazard, live lanes, and its place in its window's plan. -/
theorem Runs.waiting {i : Instr} {s : State} {t : View} (h : Runs i s t) : t.w.waiting = none := by
  obtain ⟨-, hr, -⟩ := h
  simp only [View.runs, Bool.and_eq_true, Option.isNone_iff_eq_none] at hr
  exact hr.1.2

/-- Where an instruction runs, its own operation decides how it ends. -/
theorem issue_of_runs {i : Instr} {s : State} {t : View} (h : Runs i s t) (body : View → Res) :
    issue i body s = .next (t.finish (stallKind i) (t.healRegisters i (body (t.taken i)))) := by
  obtain ⟨hv, hr, -⟩ := h
  simp only [View.runs, Bool.and_eq_true, Bool.not_eq_true', bne_iff_ne, ne_eq, Bool.or_eq_true, beq_iff_eq] at hr
  obtain ⟨⟨⟨⟨⟨⟨h1, h2⟩, h3⟩, h4⟩, h5⟩, -⟩, h6⟩ := hr
  have hb : t.badRegister i = false := by simp [View.badRegister, h5]
  have hu : (isUniform i && t.eff != t.w.liveLanes) = false := by
    rcases h4 with h4 | h4 <;> simp [h4]
  have h7 : ¬ t.eff = 0#32 := h3
  rcases h6 with h6 | h6
  · simp [issue, hv, h1, View.run, h2, h7, hu, hb, h6, View.taken]
  · cases hw : t.inWindow i with
    | false => simp [issue, hv, h1, View.run, h2, h7, hu, hb, hw, View.taken]
    | true =>
      cases hp : t.w.plan with
      | nil => simp [hp] at h6
      | cons x r =>
        rw [hp] at h6
        cases (Option.some.inj h6 : x = .pass)
        simp [issue, hv, h1, View.run, h2, h7, hu, hb, hw, View.taken, hp]

/-- Outside the rewrite windows the operation runs in the warp's own view. -/
theorem View.taken_of_not {t : View} {i : Instr} (h : t.inWindow i = false) : t.taken i = t := by simp [View.taken, h]

/-- Only tile instructions pass through the rewrite stage (R394). -/
theorem View.taken_of_not_tile {t : View} {i : Instr} (h : isTile i = false) : t.taken i = t :=
  View.taken_of_not (by simp [View.inWindow, h])

/-- The operation ends well and leaves no error mark. -/
theorem issue_ok {i : Instr} {s : State} {t t' : View} {body : View → Res} (h : Runs i s t) (hb : body (t.taken i) = .ok t')
    (hbad : t'.dev.bad = []) : issue i body s = .next t'.retire.close := by
  simp [issue_of_runs h, hb, View.healRegisters, hbad, View.finish, h.waiting]

theorem issue_fault {i : Instr} {s : State} {t : View} {body : View → Res} {f : FaultInfo} (h : Runs i s t)
    (hb : body (t.taken i) = .fault f) (hf : f.cls ≠ 0) : issue i body s = .next (t.raise f) := by
  have hc : (f.cls == 0) = false := beq_eq_false_iff_ne.2 hf
  simp only [issue_of_runs h, hb, View.healRegisters, View.finish, h.waiting, hc]
  rfl

theorem issue_busy {i : Instr} {s : State} {t : View} {body : View → Res} {f : FaultInfo} (h : Runs i s t)
    (hb : body (t.taken i) = .fault f) (hf : f.cls = 0) : issue i body s = .next (t.stalled (stallKind i)).close := by
  simp [issue_of_runs h, hb, View.healRegisters, View.finish, hf]

theorem issue_faultIn {i : Instr} {s : State} {t t' : View} {body : View → Res} {f : FaultInfo} (h : Runs i s t)
    (hb : body (t.taken i) = .faultIn t' f) (hf : f.cls ≠ 0) : issue i body s = .next (t'.raise f) := by
  have hc : (f.cls == 0) = false := beq_eq_false_iff_ne.2 hf
  simp only [issue_of_runs h, hb, View.healRegisters, View.finish, h.waiting, hc]
  rfl

theorem issue_wait {i : Instr} {s : State} {t : View} {body : View → Res} (h : Runs i s t) (hb : body (t.taken i) = .wait) :
    issue i body s = .next (t.stalled (stallKind i)).close := by
  simp [issue_of_runs h, hb, View.healRegisters, View.finish]

/-- An instruction completes when its own operation ends well; `he` names that operation, by `rfl`. -/
theorem completes {i : Instr} {s : State} {t t' : View} {body : View → Res} (he : exec i s = issue i body s) (h : Runs i s t)
    (hb : body (t.taken i) = .ok t') (hbad : t'.dev.bad = []) : Completes i s t' :=
  he.trans (issue_ok h hb hbad)

theorem raises {i : Instr} {s : State} {t : View} {body : View → Res} {f : FaultInfo} (he : exec i s = issue i body s)
    (h : Runs i s t) (hb : body (t.taken i) = .fault f) (hf : f.cls ≠ 0) : Raises i s t f :=
  he.trans (issue_fault h hb hf)

theorem stops {i : Instr} {s : State} {t : View} {body : View → Res} {f : FaultInfo} (he : exec i s = issue i body s)
    (h : Runs i s t) (hb : body (t.taken i) = .fault f) : Stops i s t f :=
  ⟨fun hf => he.trans (issue_fault h hb hf), fun hf => he.trans (issue_busy h hb hf)⟩

theorem waits {i : Instr} {s : State} {t : View} {body : View → Res} (he : exec i s = issue i body s) (h : Runs i s t)
    (hb : body (t.taken i) = .wait) : Waits i s t :=
  he.trans (issue_wait h hb)

/-- The view of the issuing warp holds the state itself. -/
theorem State.view_dev {s : State} {t : View} (h : s.view = some t) : t.dev = s := by
  simp only [State.view, State.viewOf] at h
  split at h <;> try contradiction
  split at h <;> try contradiction
  cases h
  rfl

theorem Runs.dev {i : Instr} {s : State} {t : View} (h : Runs i s t) : t.dev = s := State.view_dev h.1

/-- An instruction that runs has no error mark in view. -/
theorem Runs.bad {i : Instr} {s : State} {t : View} (h : Runs i s t) : t.dev.bad = [] := by
  obtain ⟨-, hr, -⟩ := h
  simp only [View.runs, Bool.and_eq_true, List.isEmpty_iff] at hr
  exact hr.1.1.2

/-- Issuing never refuses, and stops only for want of a warp that issues. -/
theorem issue_cases (i : Instr) (body : View → Res) (s : State) :
    (∃ s', issue i body s = .next s') ∨ issue i body s = .fault .noCurrentWarp := by
  unfold issue
  split
  · exact .inr rfl
  · split
    · exact .inr rfl
    · split
      · exact .inl ⟨_, rfl⟩
      · exact .inl ⟨_, rfl⟩

end Sys2Proof.Machine
end

