-- ==== Sys2Proof/Laws/PerInstr.lean ====
section
/-!
SUPPORT. The family WordCount, instruction by instruction: an instruction has at most four words (R80), since it has at most one
prefix of each kind (R96, R97) and at most an extension word (R91); an event has none.
-/
namespace Sys2Proof.Laws.WordCount

/-- The words of an instruction are at most four. -/
def Statement (i : Instr) : Prop := (encode i).length ≤ 4

theorem of_base {i : Instr} (k : Nat) (h : (baseWords i).length = k) (hk : k ≤ 2) : Statement i := by
  unfold Statement encode prefixWords
  rcases i.prefixes with ⟨_ | p, _ | q⟩ <;> simp <;> omega

theorem sadd (f : FormC) : Statement (.sadd f) := of_base 1 rfl (by decide)
theorem ssub (f : FormC) : Statement (.ssub f) := of_base 1 rfl (by decide)
theorem smul (f : FormC) : Statement (.smul f) := of_base 1 rfl (by decide)
theorem smulh (f : FormC) : Statement (.smulh f) := of_base 1 rfl (by decide)
theorem sdiv (f : FormC) : Statement (.sdiv f) := of_base 1 rfl (by decide)
theorem srem (f : FormC) : Statement (.srem f) := of_base 1 rfl (by decide)
theorem sand (f : FormC) : Statement (.sand f) := of_base 1 rfl (by decide)
theorem sor (f : FormC) : Statement (.sor f) := of_base 1 rfl (by decide)
theorem sxor (f : FormC) : Statement (.sxor f) := of_base 1 rfl (by decide)
theorem sshl (f : FormC) : Statement (.sshl f) := of_base 1 rfl (by decide)
theorem sshr (f : FormC) : Statement (.sshr f) := of_base 1 rfl (by decide)
theorem ssra (f : FormC) : Statement (.ssra f) := of_base 1 rfl (by decide)
theorem smin (f : FormC) : Statement (.smin f) := of_base 1 rfl (by decide)
theorem smax (f : FormC) : Statement (.smax f) := of_base 1 rfl (by decide)
theorem scmp (f : FormC) : Statement (.scmp f) := of_base 1 rfl (by decide)
theorem ssel (f : FormC) : Statement (.ssel f) := of_base 1 rfl (by decide)
theorem smov (f : FormC) : Statement (.smov f) := of_base 1 rfl (by decide)
theorem sli (f : FormC) : Statement (.sli f) := of_base 1 rfl (by decide)
theorem saddr (f : FormC) : Statement (.saddr f) := of_base 1 rfl (by decide)
theorem sclz (f : FormC) : Statement (.sclz f) := of_base 1 rfl (by decide)
theorem spopc (f : FormC) : Statement (.spopc f) := of_base 1 rfl (by decide)
theorem sbfe (f : FormC) : Statement (.sbfe f) := of_base 1 rfl (by decide)
theorem sbfi (f : FormC) : Statement (.sbfi f) := of_base 1 rfl (by decide)
theorem sget (f : FormC) : Statement (.sget f) := of_base 1 rfl (by decide)
theorem bra (f : FormG) : Statement (.bra f) := of_base 1 rfl (by decide)
theorem br (f : FormC) : Statement (.br f) := of_base 1 rfl (by decide)
theorem brx (f : FormA) : Statement (.brx f) := of_base 1 rfl (by decide)
theorem call (f : FormG) : Statement (.call f) := of_base 1 rfl (by decide)
theorem callx (f : FormA) : Statement (.callx f) := of_base 1 rfl (by decide)
theorem ret (f : FormH) : Statement (.ret f) := of_base 1 rfl (by decide)
theorem retv (f : FormA) : Statement (.retv f) := of_base 1 rfl (by decide)
theorem loop (f : FormC) : Statement (.loop f) := of_base 1 rfl (by decide)
theorem yield (f : FormH) : Statement (.yield f) := of_base 1 rfl (by decide)
theorem region (f : FormH) : Statement (.region f) := of_base 1 rfl (by decide)
theorem reconv (f : FormG) : Statement (.reconv f) := of_base 1 rfl (by decide)
theorem bsync (f : FormH) : Statement (.bsync f) := of_base 1 rfl (by decide)
theorem trap (f : FormH) : Statement (.trap f) := of_base 1 rfl (by decide)
theorem sleep (f : FormH) : Statement (.sleep f) := of_base 1 rfl (by decide)
theorem getpc (f : FormC) : Statement (.getpc f) := of_base 1 rfl (by decide)
theorem nop (f : FormH) : Statement (.nop f) := of_base 1 rfl (by decide)
theorem vadd (f : FormA) : Statement (.vadd f) := of_base 1 rfl (by decide)
theorem vsub (f : FormA) : Statement (.vsub f) := of_base 1 rfl (by decide)
theorem vmul (f : FormA) : Statement (.vmul f) := of_base 1 rfl (by decide)
theorem vmulh (f : FormA) : Statement (.vmulh f) := of_base 1 rfl (by decide)
theorem vmad (f : FormA) : Statement (.vmad f) := of_base 1 rfl (by decide)
theorem vmin (f : FormA) : Statement (.vmin f) := of_base 1 rfl (by decide)
theorem vmax (f : FormA) : Statement (.vmax f) := of_base 1 rfl (by decide)
theorem vabs (f : FormA) : Statement (.vabs f) := of_base 1 rfl (by decide)
theorem vand (f : FormA) : Statement (.vand f) := of_base 1 rfl (by decide)
theorem vor (f : FormA) : Statement (.vor f) := of_base 1 rfl (by decide)
theorem vxor (f : FormA) : Statement (.vxor f) := of_base 1 rfl (by decide)
theorem vshl (f : FormA) : Statement (.vshl f) := of_base 1 rfl (by decide)
theorem vshr (f : FormA) : Statement (.vshr f) := of_base 1 rfl (by decide)
theorem vsra (f : FormA) : Statement (.vsra f) := of_base 1 rfl (by decide)
theorem vsrar (f : FormA) : Statement (.vsrar f) := of_base 1 rfl (by decide)
theorem vadds (f : FormA) : Statement (.vadds f) := of_base 1 rfl (by decide)
theorem vsubs (f : FormA) : Statement (.vsubs f) := of_base 1 rfl (by decide)
theorem vdot2s (f : FormA) : Statement (.vdot2s f) := of_base 1 rfl (by decide)
theorem vcmp (f : FormA) : Statement (.vcmp f) := of_base 1 rfl (by decide)
theorem vsel (f : FormA) : Statement (.vsel f) := of_base 1 rfl (by decide)
theorem vmov (f : FormW) : Statement (.vmov f) := of_base 1 rfl (by decide)
theorem vli (f : FormB) : Statement (.vli f) := of_base 1 rfl (by decide)
theorem vbfe (f : FormA) : Statement (.vbfe f) := of_base 1 rfl (by decide)
theorem vpopc (f : FormA) : Statement (.vpopc f) := of_base 1 rfl (by decide)
theorem fadd (f : FormA) : Statement (.fadd f) := of_base 1 rfl (by decide)
theorem fsub (f : FormA) : Statement (.fsub f) := of_base 1 rfl (by decide)
theorem fmul (f : FormA) : Statement (.fmul f) := of_base 1 rfl (by decide)
theorem ffma (f : FormA) : Statement (.ffma f) := of_base 1 rfl (by decide)
theorem fmin (f : FormA) : Statement (.fmin f) := of_base 1 rfl (by decide)
theorem fmax (f : FormA) : Statement (.fmax f) := of_base 1 rfl (by decide)
theorem fcmp (f : FormA) : Statement (.fcmp f) := of_base 1 rfl (by decide)
theorem frcp (f : FormA) : Statement (.frcp f) := of_base 1 rfl (by decide)
theorem frsq (f : FormA) : Statement (.frsq f) := of_base 1 rfl (by decide)
theorem fexp2 (f : FormA) : Statement (.fexp2 f) := of_base 1 rfl (by decide)
theorem flog2 (f : FormA) : Statement (.flog2 f) := of_base 1 rfl (by decide)
theorem fcvt (f : FormW) : Statement (.fcvt f) := of_base 1 rfl (by decide)
theorem icvt (f : FormW) : Statement (.icvt f) := of_base 1 rfl (by decide)
theorem pkadd (f : FormA) : Statement (.pkadd f) := of_base 1 rfl (by decide)
theorem pkfma (f : FormA) : Statement (.pkfma f) := of_base 1 rfl (by decide)
theorem fclass (f : FormA) : Statement (.fclass f) := of_base 1 rfl (by decide)
theorem vslide (f : FormA) : Statement (.vslide f) := of_base 1 rfl (by decide)
theorem vshuf (f : FormA) : Statement (.vshuf f) := of_base 1 rfl (by decide)
theorem vbcast (f : FormA) : Statement (.vbcast f) := of_base 1 rfl (by decide)
theorem vreduce (f : FormA) : Statement (.vreduce f) := of_base 1 rfl (by decide)
theorem vscan (f : FormA) : Statement (.vscan f) := of_base 1 rfl (by decide)
theorem vote (f : FormA) : Statement (.vote f) := of_base 1 rfl (by decide)
theorem pset (f : FormA) : Statement (.pset f) := of_base 1 rfl (by decide)
theorem pmov (f : FormA) : Statement (.pmov f) := of_base 1 rfl (by decide)
theorem xcvt (f : FormE) : Statement (.xcvt f) := of_base 2 rfl (by decide)
theorem xpack (f : FormW) : Statement (.xpack f) := of_base 1 rfl (by decide)
theorem xunpack (f : FormW) : Statement (.xunpack f) := of_base 1 rfl (by decide)
theorem xtopk (f : FormE) : Statement (.xtopk f) := of_base 2 rfl (by decide)
theorem xcrc (f : FormA) : Statement (.xcrc f) := of_base 1 rfl (by decide)
theorem xsort (f : FormE) : Statement (.xsort f) := of_base 2 rfl (by decide)
theorem vmatch (f : FormA) : Statement (.vmatch f) := of_base 1 rfl (by decide)
theorem vlane (f : FormA) : Statement (.vlane f) := of_base 1 rfl (by decide)
theorem ld (f : FormD) : Statement (.ld f) := of_base 1 rfl (by decide)
theorem st (f : FormD) : Statement (.st f) := of_base 1 rfl (by decide)
theorem ldp (f : FormD) : Statement (.ldp f) := of_base 1 rfl (by decide)
theorem stp (f : FormD) : Statement (.stp f) := of_base 1 rfl (by decide)
theorem lds (f : FormD) : Statement (.lds f) := of_base 1 rfl (by decide)
theorem sts (f : FormD) : Statement (.sts f) := of_base 1 rfl (by decide)
theorem ldg (f : FormD) : Statement (.ldg f) := of_base 1 rfl (by decide)
theorem stg (f : FormD) : Statement (.stg f) := of_base 1 rfl (by decide)
theorem spadd (f : FormE) : Statement (.spadd f) := of_base 2 rfl (by decide)
theorem atom (f : FormE) : Statement (.atom f) := of_base 2 rfl (by decide)
theorem atomc (f : FormE) : Statement (.atomc f) := of_base 2 rfl (by decide)
theorem atoms (f : FormE) : Statement (.atoms f) := of_base 2 rfl (by decide)
theorem rwlrd (f : FormE) : Statement (.rwlrd f) := of_base 2 rfl (by decide)
theorem rwlwr (f : FormE) : Statement (.rwlwr f) := of_base 2 rfl (by decide)
theorem rwlup (f : FormE) : Statement (.rwlup f) := of_base 2 rfl (by decide)
theorem rwlrel (f : FormE) : Statement (.rwlrel f) := of_base 2 rfl (by decide)
theorem fence (f : FormH) : Statement (.fence f) := of_base 1 rfl (by decide)
theorem cpy (f : FormE) : Statement (.cpy f) := of_base 2 rfl (by decide)
theorem cpyg (f : FormE) : Statement (.cpyg f) := of_base 2 rfl (by decide)
theorem cpyw (f : FormH) : Statement (.cpyw f) := of_base 1 rfl (by decide)
theorem dst (f : FormE) : Statement (.dst f) := of_base 2 rfl (by decide)
theorem commit (f : FormH) : Statement (.commit f) := of_base 1 rfl (by decide)
theorem pref (f : FormD) : Statement (.pref f) := of_base 1 rfl (by decide)
theorem cctlIfetch (f : FormH) : Statement (.cctlIfetch f) := of_base 1 rfl (by decide)
theorem cctlFlush (f : FormH) : Statement (.cctlFlush f) := of_base 1 rfl (by decide)
theorem cctlWb (f : FormH) : Statement (.cctlWb f) := of_base 1 rfl (by decide)
theorem bankcfg (f : FormH) : Statement (.bankcfg f) := of_base 1 rfl (by decide)
theorem fput (f : FormD) : Statement (.fput f) := of_base 1 rfl (by decide)
theorem fget (f : FormD) : Statement (.fget f) := of_base 1 rfl (by decide)
theorem ldu (f : FormD) : Statement (.ldu f) := of_base 1 rfl (by decide)
theorem stu (f : FormD) : Statement (.stu f) := of_base 1 rfl (by decide)
theorem atomx (f : FormE) : Statement (.atomx f) := of_base 2 rfl (by decide)
theorem talloc (f : FormF) : Statement (.talloc f) := of_base 1 rfl (by decide)
theorem tfree (f : FormF) : Statement (.tfree f) := of_base 1 rfl (by decide)
theorem thand (f : FormH) : Statement (.thand f) := of_base 1 rfl (by decide)
theorem ttake (f : FormH) : Statement (.ttake f) := of_base 1 rfl (by decide)
theorem tld (f : FormH) : Statement (.tld f) := of_base 1 rfl (by decide)
theorem tst (f : FormH) : Statement (.tst f) := of_base 1 rfl (by decide)
theorem tldw (f : FormF) : Statement (.tldw f) := of_base 1 rfl (by decide)
theorem tswap (f : FormF) : Statement (.tswap f) := of_base 1 rfl (by decide)
theorem tmma (f : FormF) : Statement (.tmma f) := of_base 1 rfl (by decide)
theorem tmmac (f : FormF) : Statement (.tmmac f) := of_base 1 rfl (by decide)
theorem tzero (f : FormF) : Statement (.tzero f) := of_base 1 rfl (by decide)
theorem tscale (f : FormF) : Statement (.tscale f) := of_base 1 rfl (by decide)
theorem ttrans (f : FormF) : Statement (.ttrans f) := of_base 1 rfl (by decide)
theorem tcvt (f : FormH) : Statement (.tcvt f) := of_base 1 rfl (by decide)
theorem tquant (f : FormH) : Statement (.tquant f) := of_base 1 rfl (by decide)
theorem tadd (f : FormF) : Statement (.tadd f) := of_base 1 rfl (by decide)
theorem tmul (f : FormF) : Statement (.tmul f) := of_base 1 rfl (by decide)
theorem tred (f : FormF) : Statement (.tred f) := of_base 1 rfl (by decide)
theorem tabsmax (f : FormF) : Statement (.tabsmax f) := of_base 1 rfl (by decide)
theorem tgetrow (f : FormH) : Statement (.tgetrow f) := of_base 1 rfl (by decide)
theorem tsetrow (f : FormH) : Statement (.tsetrow f) := of_base 1 rfl (by decide)
theorem tdrain (f : FormH) : Statement (.tdrain f) := of_base 1 rfl (by decide)
theorem barinit (f : FormH) : Statement (.barinit f) := of_base 1 rfl (by decide)
theorem barenrol (f : FormH) : Statement (.barenrol f) := of_base 1 rfl (by decide)
theorem bararrive (f : FormH) : Statement (.bararrive f) := of_base 1 rfl (by decide)
theorem barexpect (f : FormH) : Statement (.barexpect f) := of_base 1 rfl (by decide)
theorem barwait (f : FormH) : Statement (.barwait f) := of_base 1 rfl (by decide)
theorem stamptry (f : FormH) : Statement (.stamptry f) := of_base 1 rfl (by decide)
theorem stampset (f : FormH) : Statement (.stampset f) := of_base 1 rfl (by decide)
theorem perfCtr (f : FormH) : Statement (.perfCtr f) := of_base 1 rfl (by decide)
theorem perfMcfg (f : FormH) : Statement (.perfMcfg f) := of_base 1 rfl (by decide)
theorem perfMrd (f : FormH) : Statement (.perfMrd f) := of_base 1 rfl (by decide)
theorem perfMclr (f : FormH) : Statement (.perfMclr f) := of_base 1 rfl (by decide)
theorem spawn (f : FormH) : Statement (.spawn f) := of_base 1 rfl (by decide)
theorem launch (f : FormH) : Statement (.launch f) := of_base 1 rfl (by decide)
theorem join (f : FormH) : Statement (.join f) := of_base 1 rfl (by decide)
theorem exit (f : FormH) : Statement (.exit f) := of_base 1 rfl (by decide)
theorem qdepth (f : FormH) : Statement (.qdepth f) := of_base 1 rfl (by decide)
theorem park (f : FormH) : Statement (.park f) := of_base 1 rfl (by decide)
theorem collpush (f : FormE) : Statement (.collpush f) := of_base 2 rfl (by decide)
theorem collpull (f : FormE) : Statement (.collpull f) := of_base 2 rfl (by decide)
theorem collwait (f : FormH) : Statement (.collwait f) := of_base 1 rfl (by decide)
theorem collwaitStat (f : FormH) : Statement (.collwaitStat f) := of_base 1 rfl (by decide)
theorem netst (f : FormE) : Statement (.netst f) := of_base 2 rfl (by decide)
theorem netld (f : FormE) : Statement (.netld f) := of_base 2 rfl (by decide)
theorem collgrp (f : FormH) : Statement (.collgrp f) := of_base 1 rfl (by decide)
theorem collgrpClr (f : FormH) : Statement (.collgrpClr f) := of_base 1 rfl (by decide)
theorem objset (f : FormH) : Statement (.objset f) := of_base 1 rfl (by decide)
theorem objsetClr (f : FormH) : Statement (.objsetClr f) := of_base 1 rfl (by decide)
theorem objget (f : FormH) : Statement (.objget f) := of_base 1 rfl (by decide)
theorem rwload (f : FormH) : Statement (.rwload f) := of_base 1 rfl (by decide)
theorem feat (f : FormC) : Statement (.feat f) := of_base 1 rfl (by decide)
theorem tlbinvVa (f : FormH) : Statement (.tlbinvVa f) := of_base 1 rfl (by decide)
theorem tlbinvAll (f : FormH) : Statement (.tlbinvAll f) := of_base 1 rfl (by decide)
theorem tlbinvObj (f : FormH) : Statement (.tlbinvObj f) := of_base 1 rfl (by decide)
theorem csr (f : FormH) : Statement (.csr f) := of_base 1 rfl (by decide)
theorem illegalInstruction (detail : BitVec 16) (offset : Nat) : Statement (.illegalInstruction detail offset) := of_base 0 rfl (by decide)
theorem illegalEncoding (detail : BitVec 16) (offset : Nat) : Statement (.illegalEncoding detail offset) := of_base 0 rfl (by decide)
theorem gridCompletion (grid : Nat) : Statement (.gridCompletion grid) := of_base 0 rfl (by decide)
theorem dispense (die core : Nat) : Statement (.dispense die core) := of_base 0 rfl (by decide)
theorem staggerExpiry (core : Nat) : Statement (.staggerExpiry core) := of_base 0 rfl (by decide)
theorem issueSelect (core warp : Nat) : Statement (.issueSelect core warp) := of_base 0 rfl (by decide)
theorem longLatencyStall (core warp : Nat) : Statement (.longLatencyStall core warp) := of_base 0 rfl (by decide)
theorem pendingWaitExchange (core warp : Nat) : Statement (.pendingWaitExchange core warp) := of_base 0 rfl (by decide)
theorem loadResponse (core warp load : Nat) : Statement (.loadResponse core warp load) := of_base 0 rfl (by decide)
theorem atomicResponse (core warp : Nat) : Statement (.atomicResponse core warp) := of_base 0 rfl (by decide)
theorem fenceComplete (core warp : Nat) : Statement (.fenceComplete core warp) := of_base 0 rfl (by decide)
theorem fenceConflict (core warp : Nat) : Statement (.fenceConflict core warp) := of_base 0 rfl (by decide)
theorem sleepExpiry (core warp : Nat) : Statement (.sleepExpiry core warp) := of_base 0 rfl (by decide)
theorem barwaitBoundExpiry (core warp : Nat) : Statement (.barwaitBoundExpiry core warp) := of_base 0 rfl (by decide)
theorem barwaitObserve (core warp : Nat) : Statement (.barwaitObserve core warp) := of_base 0 rfl (by decide)
theorem xformAccept (core : Nat) : Statement (.xformAccept core) := of_base 0 rfl (by decide)
theorem xformComplete (core warp : Nat) : Statement (.xformComplete core warp) := of_base 0 rfl (by decide)
theorem tileComplete (core warp : Nat) : Statement (.tileComplete core warp) := of_base 0 rfl (by decide)
theorem windowMatch (core warp : Nat) : Statement (.windowMatch core warp) := of_base 0 rfl (by decide)
theorem bankModeChangeComplete (core : Nat) : Statement (.bankModeChangeComplete core) := of_base 0 rfl (by decide)
theorem jobStart (core job : Nat) : Statement (.jobStart core job) := of_base 0 rfl (by decide)
theorem jobComplete (core job : Nat) : Statement (.jobComplete core job) := of_base 0 rfl (by decide)
theorem jobSuspend (core job : Nat) : Statement (.jobSuspend core job) := of_base 0 rfl (by decide)
theorem jobFault (core job : Nat) : Statement (.jobFault core job) := of_base 0 rfl (by decide)
theorem faultRetry (party : RetryParty) : Statement (.faultRetry party) := of_base 0 rfl (by decide)
theorem preemptTimeout (core warp : Nat) : Statement (.preemptTimeout core warp) := of_base 0 rfl (by decide)
theorem saveBlock (core : Nat) : Statement (.saveBlock core) := of_base 0 rfl (by decide)
theorem cataloguerTake (core : Nat) : Statement (.cataloguerTake core) := of_base 0 rfl (by decide)
theorem binPark (bin : Nat) : Statement (.binPark bin) := of_base 0 rfl (by decide)
theorem remoteBinForward (bin : Src ShippedBin) : Statement (.remoteBinForward bin) := of_base 0 rfl (by decide)
theorem closeT (msg : Src CloseMsg) : Statement (.closeT msg) := of_base 0 rfl (by decide)
theorem commitAck (ack : Src CloseMsg) : Statement (.commitAck ack) := of_base 0 rfl (by decide)
theorem commitRemoteTimeout (party : CommitParty) : Statement (.commitRemoteTimeout party) := of_base 0 rfl (by decide)
theorem tagWaitTimeout (core : Nat) : Statement (.tagWaitTimeout core) := of_base 0 rfl (by decide)
theorem tagHoldExpiry (gallery : Nat) (tag : BitVec 12) : Statement (.tagHoldExpiry gallery tag) := of_base 0 rfl (by decide)
theorem tagGrant (gallery : Nat) : Statement (.tagGrant gallery) := of_base 0 rfl (by decide)
theorem contributionArrival (packet : Src Contribution) : Statement (.contributionArrival packet) := of_base 0 rfl (by decide)
theorem slotTimeout (slot : Nat) : Statement (.slotTimeout slot) := of_base 0 rfl (by decide)
theorem ingressHoldTimeout (held : Nat) : Statement (.ingressHoldTimeout held) := of_base 0 rfl (by decide)
theorem deliveryWrite (delivery : Src Delivery) : Statement (.deliveryWrite delivery) := of_base 0 rfl (by decide)
theorem pullArrival (request : Src PullRequest) : Statement (.pullArrival request) := of_base 0 rfl (by decide)
theorem holdRetireTimeout (slot : Nat) : Statement (.holdRetireTimeout slot) := of_base 0 rfl (by decide)
theorem netstArrival (request : Src NetStore) : Statement (.netstArrival request) := of_base 0 rfl (by decide)
theorem netldArrival (request : Src NetLoad) : Statement (.netldArrival request) := of_base 0 rfl (by decide)
theorem fabricResponse (response : Src Response) : Statement (.fabricResponse response) := of_base 0 rfl (by decide)
theorem fabricRequestTimeout (request : Nat) : Statement (.fabricRequestTimeout request) := of_base 0 rfl (by decide)
theorem monitorSample (gallery monitor value : Nat) : Statement (.monitorSample gallery monitor value) := of_base 0 rfl (by decide)
theorem limiterSample (wing current temperature : Nat) : Statement (.limiterSample wing current temperature) := of_base 0 rfl (by decide)
theorem vchModeWrite (port : Port) (stack : Nat) (value : Word64) : Statement (.vchModeWrite port stack value) := of_base 0 rfl (by decide)
theorem vchFpWrite (port : Port) (stack : Nat) (value : Word64) : Statement (.vchFpWrite port stack value) := of_base 0 rfl (by decide)
theorem hostMemAccess (pa : Nat) (access : HostAccess) : Statement (.hostMemAccess pa access) := of_base 0 rfl (by decide)
theorem powerUp : Statement (.powerUp) := of_base 0 rfl (by decide)
theorem bootgo (port : Port) (value : Word64) : Statement (.bootgo port value) := of_base 0 rfl (by decide)
theorem firmwareVerified : Statement (.firmwareVerified) := of_base 0 rfl (by decide)
theorem firmwareRunning : Statement (.firmwareRunning) := of_base 0 rfl (by decide)
theorem linkDown (port : Port) : Statement (.linkDown port) := of_base 0 rfl (by decide)
theorem semAcquire (port : Port) (sem : Nat) : Statement (.semAcquire port sem) := of_base 0 rfl (by decide)
theorem semRelease (port : Port) (sem : Nat) : Statement (.semRelease port sem) := of_base 0 rfl (by decide)
theorem errClear (port : Port) (value : Word64) : Statement (.errClear port value) := of_base 0 rfl (by decide)
theorem ctxenWrite (port : Port) (value : Word64) : Statement (.ctxenWrite port value) := of_base 0 rfl (by decide)
theorem qapp (port : Port) (value : Word64) : Statement (.qapp port value) := of_base 0 rfl (by decide)
theorem tailinc (port : Port) (value : Word64) : Statement (.tailinc port value) := of_base 0 rfl (by decide)
theorem preStart (port : Port) (value : Word64) : Statement (.preStart port value) := of_base 0 rfl (by decide)
theorem quiesceGallery (port : Port) (gallery : Nat) : Statement (.quiesceGallery port gallery) := of_base 0 rfl (by decide)
theorem returnGallery (port : Port) (gallery : Nat) : Statement (.returnGallery port gallery) := of_base 0 rfl (by decide)
theorem substitute (port : Port) (core spare : Nat) : Statement (.substitute port core spare) := of_base 0 rfl (by decide)
theorem rowRepair (port : Port) (stack channel row : Nat) : Statement (.rowRepair port stack channel row) := of_base 0 rfl (by decide)
theorem spanRetrain (port : Port) (span : Nat) : Statement (.spanRetrain port span) := of_base 0 rfl (by decide)
theorem monitorReset (port : Port) (value : Word64) : Statement (.monitorReset port value) := of_base 0 rfl (by decide)
theorem moncfg (port : Port) (value : Word64) : Statement (.moncfg port value) := of_base 0 rfl (by decide)
theorem eccClear (port : Port) (counter : Nat) (value : Word64) : Statement (.eccClear port counter value) := of_base 0 rfl (by decide)
theorem att (port : Port) (value : Word64) : Statement (.att port value) := of_base 0 rfl (by decide)
theorem registerWrite (port : Port) (offset : Nat) (value : Word64) : Statement (.registerWrite port offset value) := of_base 0 rfl (by decide)
theorem storePerformed (core warp store : Nat) : Statement (.storePerformed core warp store) := of_base 0 rfl (by decide)
theorem softError (place : Place) (correctable : Bool) : Statement (.softError place correctable) := of_base 0 rfl (by decide)
theorem powerLoss : Statement (.powerLoss) := of_base 0 rfl (by decide)
theorem vchModeChangeComplete (stack : Nat) : Statement (.vchModeChangeComplete stack) := of_base 0 rfl (by decide)
theorem spanRetrainComplete (span : Nat) : Statement (.spanRetrainComplete span) := of_base 0 rfl (by decide)
theorem rowRepairComplete (stack channel row : Nat) : Statement (.rowRepairComplete stack channel row) := of_base 0 rfl (by decide)

end Sys2Proof.Laws.WordCount
end

