-- ==== Sys2Proof/Tests/Slice0.lean ====
section
/-!
SUPPORT. Tests: what the checks of WellFormed refuse, words of the spec and the instructions they stand for, states that meet the
hypotheses of the statements, and single steps whose results the spec works out.
-/
namespace Sys2Proof.Tests
open Sys2Proof.Machine
set_option Elab.async false

/-! ### States for tests -/

/-- An object entry's bytes (R379, R380): `rights` are RD 1, WR 2, DF 4. -/
def objBytes (base len space rights : Nat) : List Byte :=
  leBytes 8 base ++ leBytes 8 len ++ leBytes 8 (1 + 2 * space + 256 * rights) ++ leBytes 8 0

/-- What memory holds beside the page table: a page of the aperture, object 5 of 64 KB at 0x100000, object 6 over the gang's
scratchpads, and objects 7 and 8 over the aperture, of the memory kind and of the reduction kind, object 9 on deferred pages. -/
def worldBytes : List (Nat × List Byte) :=
  [(0x10008, leBytes 8 (2 ^ 47 + 0x10F)), (0x10010, leBytes 8 0x117), (0x40120, objBytes (2 ^ 43 + 0x100000) 0x10000 0 5),
   (0x400A0, objBytes 0x100000 0x10000 0 7), (0x400C0, objBytes 0 0x10000 1 3),
   (0x400E0, objBytes (2 ^ 42) 0x10000 2 3), (0x40100, objBytes (2 ^ 42 + 2 ^ 40) 0x10000 2 3)]

/-- That memory with the clause of `withFetchWord`, byte by byte. -/
def world : Memory :=
  [(0, 1), (10, 1), (18, 4), (26, 6), (65536, 15), (65537, 1), (65544, 15), (65545, 1), (65549, 128), (65552, 23), (65553, 1), (131074, 224)] ++
  [(131075, 241), (131083, 240), (262306, 16), (262314, 1), (262320, 1), (262321, 7), (262346, 1), (262352, 3), (262353, 3), (262373, 4)] ++
  [(262378, 1), (262384, 5), (262385, 3), (262405, 5), (262410, 1), (262416, 5), (262417, 3), (262434, 16), (262437, 8), (262442, 1)] ++
  [(262448, 1), (262449, 5)]
theorem test_world : worldBytes.foldl (fun m x => Cells.setMany m x.1 x.2) (State.reset.withFetchWord 32 0).mem = world := by decide +kernel

/-- Instructions whose statements speak of every lane at once. -/
def full : Instr → Bool
  | .exit _ | .ret _ | .retv _ | .bsync _ | .nop _ | .bra _ | .call _ | .fput _ | .fget _ | .vslide _ | .vreduce _ | .vscan _ => true
  | _ => false

/-- The device with core 0 holding a block of one warp in context 0, whose pages map the first 4 TB one to one and whose scratchpad has
64 KB; the warp stands at the only instruction `i` of a clause of class 7, with lanes 0 and 3 in the effective mask, or every lane where the
instruction is warp-uniform or `full` says so. -/
def stand (i : Instr) (w : Warp → Warp) (b : Block → Block) (d : State → State) : State :=
  let s0 := State.reset.withFetchWord 32 0
  let s : State := { s0 with mem := world }
  let cl : Clause := { header := 0x20000, word := 0xF1E00000, idx := 1, todo := [encode i], eff := if isUniform i || full i then 0xFFFFFFFF else 9, start := 0 }
  d (match s.block 0 with
    | none => s
    | some x => s.setBlock 0 (b { x with bankMode := [(0, 2), (1, 2), (2, 2), (3, 2)], warps := x.warps.map (fun y => w { y with clause := some cl }) }))

/-- The warp in view runs `i` itself, in a state that meets `p`. -/
def meets (i : Instr) (s : State) (p : State → View → Bool) : Bool :=
  match s.view with
  | some t => t.runs i && i.wellFormed && p s t
  | none => false

/-- What `meets` shows. -/
theorem runs_of_meets {i : Instr} {s : State} {p : State → View → Bool} (h : meets i s p = true) :
    ∃ t, Runs i s t ∧ p s t = true := by
  unfold meets at h
  split at h
  · rename_i t ht
    simp only [Bool.and_eq_true] at h
    exact ⟨t, ⟨ht, h.1.1, h.1.2⟩, h.2⟩
  · exact absurd h (by decide)

/-- The same with only the warp's registers and control changed. -/
def meetsW (i : Instr) (w : Warp → Warp) (p : View → Bool) : Bool := meets i (stand i w id id) (fun _ t => p t)

/-- A decoded word runs as it stands. -/
def runsWord (w : Nat) : Bool := ((decodeTableWord 32 w).map (fun i => meetsW i id (fun _ => true))).getD false

/-- Whether a check answers without a fault, and with which fault it does not. -/
def okE {α : Type} (r : Except FaultInfo α) : Bool := match r with | .ok _ => true | .error _ => false
def errE {α : Type} (r : Except FaultInfo α) (cls : BitVec 4) (detail : BitVec 16) : Bool :=
  match r with
  | .ok _ => false
  | .error f => f.cls == cls && f.detail == detail

/-- Whether an operation of a view is done. -/
def okR (r : Res) : Bool := match r with | .ok _ => true | _ => false

/-! ### Words that run (the value of each row of the opcode table, or a worked word of the spec) -/

def wordsScalar : List Nat :=
    [0x00000000, 0x01000000, 0x02000000, 0x03000000, 0x04000000, 0x05000000, 0x06000000, 0x07000000, 0x08000000, 0x09000000, 0x0A000000, 0x0B000000] ++
    [0x0C000000, 0x0D000000, 0x0E000000, 0x0F000000, 0x10000000, 0x11000000, 0x12000000, 0x13000000, 0x14000000, 0x15000000, 0x16000000, 0x17000000] ++
    [0x18000000, 0x19000000, 0x1A000001, 0x1B000000, 0x1C000001, 0x1D000000, 0x1E000001, 0x1F040000, 0x20000000, 0x21000000, 0x22000000, 0x23000000] ++
    [0x24000000, 0x25000000, 0x26000000, 0x27000000]

/-- Each of them decodes to a well-formed instruction that runs its own operation: `Runs` is met for its constructor. -/
theorem witness_runsScalar : wordsScalar.all runsWord = true := by decide +kernel

def wordsVector : List Nat :=
    [0x28000000, 0x29000000, 0x2A000000, 0x2B000000, 0x2C000000, 0x2D000000, 0x2E000000, 0x2F000000, 0x30000000, 0x31000000, 0x32000000, 0x33000000] ++
    [0x34000000, 0x35000000, 0x36000000, 0x37000000, 0x38000000, 0x39000000, 0x3A000000, 0x3B000000, 0x3C000000, 0x3D000000, 0x3E000000, 0x3F000000] ++
    [0x40000000, 0x41000000, 0x42000000, 0x43000000, 0x44000000, 0x45000000, 0x46000000, 0x47000000, 0x48000000, 0x49000000, 0x4A000000, 0x4B0620A0] ++
    [0x4C000000, 0x4D000000, 0x4E000000, 0x4F000000, 0x50000001, 0x51000000, 0x52000004, 0x53000000, 0x54000000, 0x55000000, 0x56000000, 0x57000000]

/-- Each of them decodes to a well-formed instruction that runs its own operation: `Runs` is met for its constructor. -/
theorem witness_runsVector : wordsVector.all runsWord = true := by decide +kernel

def wordsMove : List Nat :=
    [0x5C000000, 0x5E000000, 0x5F000000, 0x60000000, 0x61000000, 0x62000000, 0x63000000, 0x64000000, 0x65000000, 0x66000000, 0x67000000, 0x70000000] ++
    [0x73000000, 0x75200002, 0x76000000, 0x77000000, 0x77000001, 0x77000002, 0x78000000, 0x79000000, 0x7A000000, 0x7B000000, 0x7C000000]

/-- Each of them decodes to a well-formed instruction that runs its own operation: `Runs` is met for its constructor. -/
theorem witness_runsMove : wordsMove.all runsWord = true := by decide +kernel

def wordsTile : List Nat :=
    [0x7E108E00, 0x7F000000, 0x80000000, 0x81000000, 0x82000000, 0x83000000, 0x84000000, 0x85000000, 0x86000000, 0x87000000, 0x88000000, 0x89000000] ++
    [0x8A000000, 0x8B000000, 0x8C000000, 0x8D000000, 0x8E000000, 0x8F000000, 0x90000000, 0x91000000, 0x92000000, 0x93000000]

/-- Each of them decodes to a well-formed instruction that runs its own operation: `Runs` is met for its constructor. -/
theorem witness_runsTile : wordsTile.all runsWord = true := by decide +kernel

def wordsDevice : List Nat :=
    [0x94010A04, 0x95000000, 0x96000000, 0x97000000, 0x98000000, 0x99000000, 0x9A000000, 0x9B000000, 0x9B000001, 0x9B000002, 0x9B000003, 0x9C000000] ++
    [0x9D000000, 0x9E01C001, 0x9F000000, 0xA0000000, 0xA1000000, 0xA4000000, 0xA4000001, 0xA7000000, 0xA7000100, 0xA8000000, 0xA8000001, 0xA9000000] ++
    [0xAA000000, 0xAB000000, 0xAC000000, 0xAC000001, 0xAC000002, 0xAD000000]

/-- Each of them decodes to a well-formed instruction that runs its own operation: `Runs` is met for its constructor. -/
theorem witness_runsDevice : wordsDevice.all runsWord = true := by decide +kernel

/-! ### Instructions for witnesses -/

def fA (d a b : BitVec 7) (var : BitVec 2) (bs : BitVec 1) : FormA := { d := d, a := a, b := b, var := var, bs := bs }
def fC (d a b fn : BitVec 6) : FormC := { d := d, a := a, b := b, fn := fn, imm := none }
def fCi (d a b fn : BitVec 6) (imm : BitVec 24) : FormC := { d := d, a := a, b := b, fn := fn, imm := some imm }
def fD (data off : BitVec 7) (obj : BitVec 6) : FormD := { data := data, off := off, obj := obj, la := 1, imm := none, ext := none }
def fE (d a : BitVec 7) (obj : BitVec 6) (sub : BitVec 4) (ord sco : BitVec 3) (opr : BitVec 5) (typ : BitVec 4) (x : BitVec 13) : FormE :=
  { d := d, a := a, obj := obj, sub := sub, ord := ord, sco := sco, opr := opr, typ := typ, la := 0, x := x, imm := none, ext := none }
def fF (hd ha hb mods : BitVec 5) : FormF := { hd := hd, ha := ha, hb := hb, la := 0, mods := mods }
def fG (pred : BitVec 3) (neg : BitVec 1) (off : BitVec 20) : FormG := { pred := pred, neg := neg, off := off, imm := none }
def fH (d a b : BitVec 5) (fn : BitVec 9) : FormH := { d := d, a := a, b := b, fn := fn, imm := none, ext := none }
def fW (d a : BitVec 7) (wd wa : BitVec 2) (sel : BitVec 6) : FormW := { d := d, a := a, wd := wd, wa := wa, sel := sel }

/-- The instruction runs in the plain state. -/
def runs (i : Instr) : Bool := meetsW i id (fun _ => true)

/-- An outstanding load of that destination. -/
def loadTo (d : LoadDst) (acq : Bool) : LoadOp :=
  { seq := 0, pc := 0, since := 0, dst := d, size := 4, lanes := [], acq := acq, plain := true, dfr := false, glob := true }

/-- A tile operation under way. -/
def tileOp (i : Instr) : Op := { seq := 0, pc := 0, instr := i, since := 0, body := .tile 0 false [] [] false }

/-- A pending acquire FENCE. -/
def aFence : FenceState := { seq := 0, resume := 0x20000, prior := [], order := 1, scope := 3, watch := [], hit := false, rollbacks := 0 }

/-- A warp of core 0 at its header, before the clause is fetched, changed as `w` says. -/
def oneWarp (w : Warp → Warp) : State :=
  let s := State.reset.withFetchWord 32 0
  match s.block 0 with
  | some b => s.setBlock 0 { b with warps := b.warps.map w }
  | none => s

/-- A buffered store of four bytes at a place. -/
def storeTo (loc : Loc) : BufEntry := .store { seq := 0, pc := 0, loc := loc, bytes := leBytes 4 0, add := none, rel := false, sc := false, sco := 3 }

/-- Whether the warp has accesses under way of four bytes at an offset of a slice. -/
def sliceBusy (t : View) (off : Nat) : Bool :=
  t.effLanes.any (fun l => t.w.ownStores (.slice l off) 4 || t.w.ownReads (.slice l off) 4)

/-! ### Decoding and stepping -/

/-- Words that the spec works out, and the instructions they stand for. -/
theorem test_decode_scalar :
    decodeTableWord 32 0x000C4005 = some (.sadd (fC 3 4 0 5)) ∧ decodeTableWord 32 0x040420C1 = some (.sdiv (fC 1 2 3 1)) ∧
    decodeTableWord 32 0x0E084142 = some (.scmp (fC 2 4 5 2)) ∧ decodeTableWord 32 0x17140009 = some (.sget (fC 5 0 0 9)) := by
  decide +kernel

theorem test_decode_vector :
    decodeTableWord 32 0x28081430 = some (.vadd (fA 4 5 6 0 0)) ∧ decodeTableWord 32 0x390E1430 = some (.vdot2s (fA 7 5 6 0 0)) ∧
    decodeTableWord 32 0x3A241430 = some (.vcmp (fA 18 5 6 0 0)) ∧ decodeTableWord 32 0x50142019 = some (.vslide (fA 10 8 3 0 1)) := by
  decide +kernel

theorem test_decode_memory :
    decodeTableWord 32 0x600E2051 = some (.ld (fD 7 8 5)) ∧ decodeTableWord 32 0x73000002 = some (.cpyw (fH 0 0 0 2)) ∧
    decodeTableWord 32 0x70000021 = some (.fence (fH 0 0 0 33)) := by
  decide +kernel

theorem test_decode_memory_prefixed :
    ((decode [0x69082051, 0x70000009]).map Decoded.instr) = some (.atom (fE 4 8 5 1 3 4 0 0 9)) ∧
    ((decode [0x71280050, 0x00004000]).map Decoded.instr) = some (.cpy { fE 20 0 5 0 0 0 0 0 0 with la := 2 }) ∧
    ((decode [0x74182860, 0x0041E000]).map Decoded.instr) = some (.dst { fE 12 10 6 0 0 0 2 0 0 with la := 15 }) ∧
    ((decode [0xA2182070, 0x54000089]).map Decoded.instr) = some (.collpush (fE 12 8 7 0 2 5 0 0 0x89)) := by decide +kernel

theorem test_decode_convert_tile :
    decodeTableWord 32 0x4B0620A0 = some (.fcvt (fW 3 8 0 2 0x20)) ∧ decodeTableWord 32 0x86408860 = some (.tmma { fF 8 2 4 0 with la := 3 }) ∧
    decodeTableWord 32 0x7F180000 = some (.tfree (fF 3 0 0 0)) ∧ decodeTableWord 32 0x8A188000 = some (.ttrans (fF 3 2 0 0)) := by
  decide +kernel

theorem test_decode_device :
    decodeTableWord 32 0x94010A04 = some (.barinit (fH 0 4 5 4)) ∧ decodeTableWord 32 0x9C2A1202 = some (.spawn (fH 5 8 9 2)) ∧
    decodeTableWord 32 0x9D218000 = some (.launch (fH 4 6 0 0)) ∧ decodeTableWord 32 0xAC010A00 = some (.tlbinvVa (fH 0 4 5 0)) ∧
    decodeTableWord 32 0xA9290002 = some (.objget (fH 5 4 0 2)) ∧ decodeTableWord 32 0xAD200000 = some (.csr (fH 4 0 0 0)) := by
  decide +kernel

/-- A word that no row of the table has is refused; a field value that a row does not allow becomes class 0x02 (R100, R101). -/
theorem test_decode_refused :
    decodeTableWord 32 0xFF000000 = none ∧
    (decodeFor 128 [0x04042082]).map Decoded.instr = some (.illegalEncoding 0 0) := by decide +kernel

/-! ### What WellFormed refuses -/

/-- One term for each check: a reserved function code, a field that must be zero, a register group that does not fit, a scalar
destination that may not be s0, an order that the opcode does not take, a scope code beyond 5, a prefix on an opcode that takes none,
and an event, which no word encodes. -/
theorem test_illFormed :
    [.sdiv (fC 1 2 3 2), .scmp (fC 8 1 2 0), .nop (fH 1 0 0 0), .vadd (fA 127 0 2 3 0), .loop (fC 0 0 0 0),
     .atom (fE 1 2 5 1 5 0 0 10 9), .atom (fE 1 2 5 1 0 6 0 10 9), .fcvt (fW 0 8 0 0 0x20), .sleep { fH 0 0 0 0 with ext := some 0 },
     .powerUp].all (fun i => !Instr.wellFormed i) = true := by decide +kernel

/-! ### Hypotheses that are met: decoding, stepping, issue -/

/-- DecodeEncode: a well-formed instruction. -/
theorem witness_DecodeEncode : (Instr.sadd (fC 3 4 0 5)).wellFormed = true := by decide +kernel

/-- StepRunsTransition: an event and an issue are next; the warp stands inside a clause, at a header that is fetched, and at one that
faults. -/
theorem witness_StepRunsEvent : ({ State.reset with next := .event .powerUp } : State).next = .event .powerUp := by decide
theorem witness_StepFetches :
    (match (State.reset.withFetchWord 32 0x000C4005).view with
      | some t => t.w.clause.isNone && t.w.waiting.isNone && (match t.fetch with | .ok t' => t'.decoded == .sadd (fC 3 4 0 5) | _ => false)
      | none => false) = true := by decide +kernel
theorem witness_StepFetchesPolled :
    (match (oneWarp (fun w => { w with waiting := some (0, .result) })).view with
      | some t => t.w.clause.isNone && t.w.waiting.isSome && okR t.fetch
      | none => false) = true := by decide +kernel
theorem witness_StepFetchesWait :
    (match (oneWarp (fun w => { w with started := false, fence := some aFence })).view with
      | some t => t.w.clause.isNone && (match t.fetch with | .wait => true | _ => false)
      | none => false) = true := by decide +kernel
theorem witness_StepFetchesFault :
    (match ({ oneWarp id with mem := [] } : State).view with
      | some t => t.w.clause.isNone && t.w.waiting.isNone && (match t.fetch with | .faultIn _ f => f.cls == 9 | _ => false)
      | none => false) = true ∧
    (match ({ oneWarp (fun w => { w with started := false }) with mem := [] } : State).view with
      | some t => t.w.clause.isNone && t.w.waiting.isNone && (match t.fetch with | .fault f => f.cls == 9 | _ => false)
      | none => false) = true := by decide +kernel
theorem witness_StepRunsDecoded :
    (match (stand (.sadd (fC 3 4 0 5)) id id id).view with
      | some t => t.w.clause.isSome && t.decoded == .sadd (fC 3 4 0 5)
      | none => false) = true := by decide +kernel

/-- EventsStepOn: an event; StepKeepsMemoryWf: a memory with entries in canonical form. -/
theorem witness_StepsNeverRefused : Instr.isEvent .powerUp = true := by decide
theorem witness_StepKeepsMemoryWf : Memory.wf (State.reset.withFetchWord 32 0x000C4005).mem = true := by decide +kernel

/-- IssueRules: an empty effective mask, a warp-uniform instruction without every lane, a load whose register is needed, and a warp that
has been waiting. -/
theorem witness_SkipAndUniformity :
    (match (stand (.sadd (fC 1 2 3 0)) (fun w => { w with clause := w.clause.map (fun c => { c with eff := 0 }) }) id id).view with
      | some t => !t.cl.todo.isEmpty && t.w.waiting.isNone && t.eff == 0
      | none => false) = true ∧
    (match (stand (.sadd (fC 1 2 3 0)) (fun w => { w with waiting := some (0, .short), clause := w.clause.map (fun c => { c with eff := 0 }) }) id id).view with
      | some t => !t.cl.todo.isEmpty && t.w.waiting.isSome && t.eff == 0
      | none => false) = true ∧
    (match (stand (.cpy (fE 20 0 5 0 0 0 0 0 0)) (fun w => { w with clause := w.clause.map (fun c => { c with eff := 1 }) }) id id).view with
      | some t => !t.cl.todo.isEmpty && t.w.waiting.isNone && !t.hazard (.cpy (fE 20 0 5 0 0 0 0 0 0)) && t.eff != 0 && isUniform (.cpy (fE 20 0 5 0 0 0 0 0 0)) && t.eff != t.w.liveLanes
      | none => false) = true ∧
    (match (stand (.vadd (fA 1 2 3 0 0)) (fun w => { w with loads := [loadTo (.v 2 1) false] }) id id).view with
      | some t => !t.cl.todo.isEmpty && t.eff != 0 && t.hazard (.vadd (fA 1 2 3 0 0)) && t.w.plan.isEmpty
      | none => false) = true ∧
    (match (stand (.sadd (fC 1 2 3 0)) (fun w => { w with waiting := some (0, .short) }) id id).view with
      | some t => !t.cl.todo.isEmpty && t.w.waiting.isSome && t.eff != 0 && !t.hazard (.sadd (fC 1 2 3 0))
      | none => false) = true := by decide +kernel

/-- Scoreboard: a load into a vector and into a scalar register, a tile operation under way, a clause of class 7 with either, and a
scalar instruction that neither holds up, in a clause of another class. -/
theorem witness_Scoreboard :
    ((stand (.vadd (fA 1 2 3 0 0)) (fun w => { w with loads := [loadTo (.v 2 1) false] }) id id).view.map
      (fun t => t.w.loads.any (fun ld => ld.dst == .v 2 1))) = some true ∧
    ((stand (.sadd (fC 1 2 3 0)) (fun w => { w with loads := [loadTo (.s 2) false] }) id id).view.map
      (fun t => t.w.loads.any (fun ld => ld.dst == .s 2))) = some true ∧
    ((stand (.tldw (fF 0 3 0 0)) (fun w => { w with ops := [tileOp (.tzero (fF 3 0 0 0))] }) id id).view.map
      (fun t => t.w.ops.any (fun o => o.instr == .tzero (fF 3 0 0 0)) && t.cl.word.extractLsb' 21 3 == 7)) = some true ∧
    ((stand (.sadd (fC 1 2 3 0)) (fun w => { w with
        loads := [loadTo (.s 9) false, loadTo (.v 2 1) false], ops := [tileOp (.tzero (fF 3 0 0 0))], clause := w.clause.map (fun c => { c with word := 0xF1A00000 }) }) id id).view.map
      (fun t => !t.w.scStore && !t.dev.netSc t.core t.w.num && t.cl.word.extractLsb' 21 3 != 7 &&
        t.w.loads.all (fun ld => !ld.acq && [1, 2, 3].all (fun k => ld.dst != .s k)) &&
        t.w.ops.all (fun o => !o.acquires && !o.holds.ws.contains 1 && !o.holds.ws.contains 2 && !o.holds.ws.contains 3))) = some true := by
  decide +kernel

/-! ### Registers and scalar instructions -/

/-- RegisterFiles: files in canonical form, a register that is not 0, and lanes at the ends of their range. -/
theorem witness_RegisterFiles :
    let w : Warp := { Warp.start 0 0 none with s := [(1, 5)], p := [(7, 1)], v := [(0, 1), (4095, 2)] }
    Cells.wf w.s = true ∧ Cells.wf w.p = true ∧ Cells.wf w.v = true ∧ w.rs 1 = 5 ∧ w.rp 7 = 1 ∧ w.rv 127 31 = 2 := by decide +kernel

/-- OperandsB: a register, a field and an immediate; v(b), and s(b) with BS = 1. -/
theorem witness_OperandsB :
    (fC 1 2 3 0).imm = none ∧ (fC 1 2 3 0).fn = 0 ∧ (fC 1 2 0 63).fn ≠ 0 ∧ (fCi 1 2 0 0 0xFFFFFF).imm = some 0xFFFFFF ∧
    (fA 1 2 3 0 0).bs = 0 ∧ (fA 1 2 3 0 1).bs = 1 := by decide +kernel

/-- ScalarIntegers: every form, with the divisor 0 (s0), another, and the most negative dividend by −1. -/
theorem witness_ScalarIntegers :
    [Instr.sadd (fC 1 2 0 63), .ssub (fCi 1 2 0 0 1), .smul (fC 0 2 3 0), .sand (fC 1 2 3 0), .sor (fC 1 2 3 0), .sxor (fC 1 2 3 0),
      .sshl (fCi 1 2 0 0 1), .sshr (fC 1 2 0 63), .ssra (fCi 1 2 0 0 1), .smulh (fC 1 2 3 0), .smulh (fC 1 2 3 1), .sdiv (fC 1 2 0 1),
      .srem (fC 1 2 0 0), .smin (fC 1 2 3 0), .smin (fC 1 2 3 1), .smax (fC 1 2 3 0), .smax (fC 1 2 3 1)].all runs = true ∧
    ([Instr.sdiv (fC 1 2 3 0), .srem (fC 1 2 3 0)].all (fun i => meetsW i (fun w => { w with s := [(2, 0x8000000000000000), (3, -1)] })
      (fun t => t.w.rs 2 == BitVec.intMin 64 && t.w.rs 3 == BitVec.allOnes 64 && t.w.rs 3 != 0))) = true ∧
    ([Instr.sdiv (fC 1 2 3 1), .srem (fC 1 2 3 1)].all (fun i => meetsW i (fun w => { w with s := [(3, 7)] }) (fun t => t.w.rs 3 != 0))) = true := by
  decide +kernel

/-- ScalarSelectsMoves: every condition code and select mode, and the first and last field of SBFE and SBFI. -/
theorem witness_ScalarSelectsMoves :
    ((List.range 10).all (fun c => runs (.scmp (fC 7 2 3 (BitVec.ofNat 6 c))))) = true ∧
    [Instr.ssel (fC 1 2 3 7), .ssel (fC 1 2 3 31), .ssel (fC 1 2 3 47), .smov (fC 1 2 0 0), .sli (fC 1 63 63 63), .sli (fCi 1 0 0 0 1),
      .saddr (fC 1 2 3 7), .sclz (fC 1 2 0 0), .spopc (fC 1 2 0 0), .sbfe (fC 1 2 3 1), .sbfe (fC 1 2 3 0), .sbfi (fC 1 2 3 0)].all runs = true := by
  decide +kernel

/-- SpecialReads: every special register, and the others. -/
theorem witness_SpecialReads :
    ((List.range 22).all (fun n => runs (.sget (fC 1 0 0 (BitVec.ofNat 6 n))))) = true ∧
    [Instr.getpc (fC 1 0 0 63), .feat (fC 1 0 0 2), .nop (fH 0 0 0 0), .pref (fD 0 0 5)].all runs = true := by decide +kernel

/-- ScalarFrame. -/
theorem witness_ScalarFrame : runs (.sadd (fC 0 2 3 0)) = true ∧ runs (.sget (fC 63 0 0 21)) = true := by decide +kernel

/-! ### Vector instructions -/

/-- VectorNamedTypes and VectorIntegers: every element type. -/
theorem witness_VectorIntegers :
    ((List.range 4).all (fun v => [Instr.vadd, .vsub, .vmul, .vmad, .vmulh, .vmin, .vmax, .vadds, .vsubs].all
      (fun i => runs (i (fA 4 6 8 (BitVec.ofNat 2 v) 0)) && runs (i (fA 4 6 8 (BitVec.ofNat 2 v) 1))))) = true ∧
    ((List.range 3).all (fun v => [Instr.vshl, .vshr, .vsra].all (fun i => runs (i (fA 4 6 8 (BitVec.ofNat 2 v) 1))))) = true ∧
    ((List.range 3).all (fun v => runs (.vabs (fA 4 6 0 (BitVec.ofNat 2 v) 0)))) = true ∧
    ((List.range 2).all (fun v => [Instr.vand, .vor, .vxor].all (fun i => runs (i (fA 4 6 8 (BitVec.ofNat 2 v) 1))))) = true ∧
    [Instr.vsrar (fA 7 7 2 0 1), .vpopc (fA 1 2 0 0 0), .vpopc (fA 1 2 0 1 0), .vdot2s (fA 7 5 6 0 0), .vdot2s (fA 7 5 6 1 0),
      .vdot2s (fA 7 5 6 2 0)].all runs = true := by decide +kernel

/-- VectorSelectMove: every condition, both types, and VMOV from a group and from a scalar. -/
theorem witness_VectorSelectMove :
    ((List.range 6).all (fun c => runs (.vcmp (fA (BitVec.ofNat 7 (8 * c + 7)) 5 6 0 0)) && runs (.vcmp (fA (BitVec.ofNat 7 (8 * c + 7)) 5 6 1 1)))) = true ∧
    [Instr.vsel (fA 4 5 6 1 1), .vbfe (fA 1 2 3 0 0), .vbfe (fA 1 2 3 1 0), .vmov (fW 8 16 3 3 0), .vmov (fW 8 3 1 0 1),
      .vli { d := 1, a := 0, imm10 := 1023, imm := none }, .vli { d := 1, a := 0, imm10 := 0, imm := some 1 }].all runs = true := by
  decide +kernel

/-- FloatLanes and Conversions. -/
theorem witness_FloatLanes :
    [Instr.fadd (fA 1 2 3 0 0), .fsub (fA 1 2 3 0 1), .fmul (fA 1 2 3 0 0), .ffma (fA 1 2 3 0 0), .fmin (fA 1 2 3 0 0), .fmax (fA 1 2 3 0 0),
      .frcp (fA 1 2 0 0 0), .frsq (fA 1 2 0 0 0), .fexp2 (fA 1 2 0 0 0), .flog2 (fA 1 2 0 0 0), .pkadd (fA 1 2 3 0 0), .pkadd (fA 1 2 3 1 0),
      .pkfma (fA 1 2 3 0 0), .fclass (fA 1 2 0 0 0), .fcmp (fA 47 2 3 0 0)].all runs = true := by decide +kernel
theorem witness_Conversions :
    [Instr.fcvt (fW 3 8 0 2 0x20), .fcvt (fW 8 3 2 0 0x04), .icvt (fW 1 2 0 0 0), .icvt (fW 1 2 0 0 1), .icvt (fW 1 2 0 0 0x10), .icvt (fW 1 4 0 2 4)].all runs = true ∧
    (fmtF32.read 0x7FC00000).isNan = true := by decide +kernel

/-- RoundingNearest: each format, with an exact and an inexact value. -/
theorem witness_RoundingNearest :
    [fmtF32, fmtF16, fmtBF16, fmtE5M2].all (fun F => !(F.round .ne false 1 0).ovf && !(F.round .ne true (2 ^ 30 + 1) (-30)).ovf) = true := by
  decide +kernel

/-- FloatSpecialValues: a NaN that is signalling and one that is not. -/
theorem witness_FloatSpecialValues :
    (fmtF32.read 0x7F800001).isNan = true ∧ (fmtF32.read 0x7F800001).snan = true ∧ (fmtF32.read 0x7FC00000).isNan = true ∧
      (fmtF32.read 0x7FC00000).snan = false := by decide +kernel

/-- CrossLane: every variant. -/
theorem witness_CrossLane :
    ((List.range 4).all (fun v => runs (.vslide (fA 10 8 3 (BitVec.ofNat 2 v) 1)) && runs (.pmov (fA 7 15 1 (BitVec.ofNat 2 v) 0)) &&
      runs (.vote (fA 1 9 0 (BitVec.ofNat 2 v) 0)))) = true ∧
    ((List.range 3).all (fun v => runs (.vshuf (fA 10 8 12 (BitVec.ofNat 2 v) 0)))) = true ∧
    ((List.range 11).all (fun k => runs (.vreduce (fA 1 2 (BitVec.ofNat 7 k) 0 0)) && runs (.vreduce (fA 1 2 (BitVec.ofNat 7 k) 1 0)) &&
      runs (.vscan (fA 1 2 (BitVec.ofNat 7 k) 0 0)) && runs (.vscan (fA 1 2 (BitVec.ofNat 7 k) 1 0)))) = true ∧
    [Instr.vbcast (fA 10 8 3 0 1), .vbcast (fA 10 8 3 1 1), .vbcast (fA 10 8 0 2 0), .vbcast (fA 10 8 0 3 0), .pset (fA 1 2 0 0 0),
      .pset (fA 1 2 0 1 0), .pset (fA 1 0 0 2 0), .pset (fA 1 0 0 3 0), .vmatch (fA 1 2 0 0 0), .vmatch (fA 1 2 0 1 0), .vlane (fA 1 0 0 0 0),
      .vlane (fA 1 0 0 1 0), .vlane (fA 1 0 0 3 0)].all runs = true := by decide +kernel
theorem witness_VlaneOffsets :
    [256, 1, 0, 252].all (fun n => meetsW (.vlane (fA 1 2 3 2 1)) (fun w => { w with s := [(3, BitVec.ofNat 64 n)] })
      (fun t => t.w.rs 3 == BitVec.ofNat 64 n && !sliceBusy { t with cl := { t.cl with eff := 1 } } n)) = true ∧
    meetsW (.vlane (fA 1 2 3 2 1)) (fun w => { w with s := [(3, 252)], buf := [storeTo (.slice 0 252)] })
      (fun t => t.w.rs 3 == 252 && sliceBusy { t with cl := { t.cl with eff := 1 } } 252) = true := by decide +kernel

/-- VectorFrames: a pair, a group, a predicate, flags, and scalar results. -/
theorem witness_VectorFrames :
    [Instr.vadd (fA 4 6 8 3 0), .vand (fA 4 6 8 1 0), .vshl (fA 4 6 8 2 1), .vbcast (fA 10 8 3 1 1), .vcmp (fA 7 5 6 0 0), .vote (fA 1 1 0 2 0),
      .fcmp (fA 7 2 3 0 0), .vreduce (fA 1 2 0 1 0), .vlane (fA 1 0 0 0 0), .vmov (fW 8 16 3 3 0), .icvt (fW 1 2 0 0 0)].all runs = true := by
  decide +kernel

/-- Reductions: the tree and the running values that its premises name exist, for every element `a`, mask and step. -/
theorem witness_Reductions (e : LaneMask) (a : Nat → Word32) (ls : List Nat) (step : Word32 → Word32 → Flagged Word32) :
    (∃ T : Nat → Nat → Option (Flagged Word32),
      (∀ j, T 0 j = if e.getLsbD j then some { val := a j, fp := 0, sat := false } else none) ∧
      ∀ m j, T (m + 1) j = match T m (2 * j), T m (2 * j + 1) with
        | some x, some y => some { val := (step x.val y.val).val, fp := x.fp ||| y.fp ||| (step x.val y.val).fp, sat := false }
        | some x, none => some x
        | none, y => y) ∧
    ∃ R : Nat → Flagged Word32, R 0 = { val := a (ls.headD 0), fp := 0, sat := false } ∧
      ∀ k, R (k + 1) = step (R k).val (a (ls.getD (k + 1) 0)) :=
  ⟨⟨fun m => Nat.rec (fun j => if e.getLsbD j then some { val := a j, fp := 0, sat := false } else none)
      (fun _ T j => match T (2 * j), T (2 * j + 1) with
        | some x, some y => some { val := (step x.val y.val).val, fp := x.fp ||| y.fp ||| (step x.val y.val).fp, sat := false }
        | some x, none => some x
        | none, y => y) m, fun _ => rfl, fun _ _ => rfl⟩,
    ⟨fun k => Nat.rec { val := a (ls.headD 0), fp := 0, sat := false } (fun k r => step r.val (a (ls.getD (k + 1) 0))) k, rfl, fun _ => rfl⟩⟩

/-! ### The transform pipe, control and regions -/

/-- A pending fence. -/
def pend : FenceState := { seq := 0, resume := 0x20000, prior := [], order := 3, scope := 4, watch := [], hit := false, rollbacks := 0 }

/-- A pending fence whose speculative reads of a sector may still roll the warp back. -/
def pendW : FenceState := { pend with watch := [0x2000] }

/-- A read at issue that is done, whose bytes meet `p`. -/
def okRead (r : ReadRes) (p : List Byte → Bool) : Bool := match r with | .ok _ bs => p bs | _ => false
def faultRead (r : ReadRes) : Bool := match r with | .fault _ => true | _ => false
def waitRead (r : ReadRes) : Bool := match r with | .wait => true | _ => false

/-- A transform operation under way. -/
def xOp (i : Instr) (b : OpBody) : Op := { seq := 0, pc := 0, instr := i, since := 0, body := b }

/-- Transforms: every instruction with room in the queue and without, and XCVT with its record aligned and not, legal and not. -/
theorem witness_TransformIssue :
    ([Instr.xpack (fW 1 4 0 1 0), .xunpack (fW 4 1 1 0 0), .xtopk (fE 1 2 3 0 0 0 0 0 0), .xcrc (fA 1 2 0 0 0), .xsort (fE 2 4 0 0 0 0 0 0 0),
      .xcvt (fE 1 2 9 0 0 0 0 0 0)].all (fun i =>
      meetsW i id (fun t => (t.blk.xqueues.getD 0 []).length < 4) &&
      meets i (stand i id (fun b => { b with xqueues := [[1, 2, 3, 4], [], [], []] }) id) (fun _ t => 4 ≤ (t.blk.xqueues.getD 0 []).length))) = true := by
  decide +kernel

/-- A state whose s(9) holds a place with a record of these bytes. -/
def atParam (i : Instr) (bs : List Byte) (w : Warp → Warp) : State :=
  stand i (fun x => w { x with s := [(9, 0x100000)] }) id (fun s => { s with mem := Cells.setMany s.mem 0x100000 bs })

/-- XCVT to BF16 from FP32: a record that is legal with an even count of elements and one whose count does not fit, one that is not
legal, one that is not aligned, one behind a pending fence, and one on no page. -/
theorem witness_Xcvt :
    let rcd (fmt : Byte) : List Byte := [fmt, 0, 0, 0] ++ leBytes 4 0x3F800000 ++ leBytes 4 0x3F800000
    let good (t : View) (l c : Bool) (bs : List Byte) : Bool :=
      Param.legal bs (xcvtFormats 0) == l && (!l || xcvtCount (fE 2 4 9 1 0 0 0 0 0) (Param.ofBytes bs).fmt == c) && (t.blk.xqueues.getD 0 []).length < 4
    let run (bs : List Byte) (w : Warp → Warp) (p : View → Bool) : Bool := meets (.xcvt (fE 2 4 9 1 0 0 0 0 0)) (atParam (.xcvt (fE 2 4 9 1 0 0 0 0 0)) bs w) (fun _ t => p t)
    run (rcd 1) id (fun t => okRead (t.readVa 0x100000 32) (good t true true)) = true ∧
    run (rcd 3) id (fun t => okRead (t.readVa 0x100000 32) (good t true false)) = true ∧
    run [255, 255] id (fun t => okRead (t.readVa 0x100000 32) (good t false false)) = true ∧
    run [] (fun w => { w with s := [(9, 0x100010)] }) (fun t => (t.w.rs 9).toNat % 32 != 0) = true ∧
    run [] (fun w => { w with fence := some pend }) (fun t => waitRead (t.readVa 0x100000 32)) = true ∧
    run [] (fun w => { w with s := [(9, 2 ^ 45)] }) (fun t => faultRead (t.readVa (2 ^ 45) 32)) = true := by decide +kernel

theorem witness_TransformPipe :
    let i : Instr := .xcrc (fA 1 2 0 0 0)
    let s := stand i (fun w => { w with ops := [xOp i (.xqueued 1 [])] }) (fun b => { b with xqueues := [[0], [], [], []] }) id
    let s2 := stand i (fun w => { w with ops := [xOp i (.xaccepted [] 1 0)] }) (fun b => { b with xpipe := [[0], [], [], []] }) id
    ((s.block 0).map (fun b => b.nextQuad (s.pipeLast 0) == some 0 && (b.xqueues.getD 0 []).head? == some 0 && (b.warp 0).isSome &&
        b.xpipe.getD 0 [0] == [] && s.bad.isEmpty)) = some true ∧
      ((s2.block 0).map (fun b => (b.xpipe.getD 0 []).head? == some 0 && (b.warp 0).isSome)) = some true := by decide +kernel

/-- TransformResults: formats other than q4 and q4 on either side, both kinds of XTOPK and of a companion register, and the two bits of a
CRC step. -/
theorem witness_TransformResults :
    (fE 2 4 9 1 0 0 0 0 0).typ ≠ 5 ∧ (Param.ofBytes (List.replicate 32 0)).fmt ≠ 5 ∧ (fE 1 2 3 3 0 0 0 0 0).sub.toNat < 4 ∧
      (fW 4 1 1 0 5).sel.toNat < 6 ∧ (fE 2 4 9 1 0 0 0 5 0).typ = 5 ∧ (fE 2 4 9 2 0 0 0 0 0).typ.toNat < 3 ∧
      (Param.ofBytes (5 :: List.replicate 31 0)).fmt = 5 ∧ grpW ((fE 2 4 9 2 0 0 0 0 0).sub.extractLsb' 0 2) * (32 / fmtBits 0) =
        4 * grpW ((fE 2 4 9 2 0 0 0 0 0).sub.extractLsb' 2 2) := by decide +kernel

/-- Six splits of which the first runs. -/
def six : List Split := { pc := 0x20000, mask := 0x1F, st := .running } ::
  (List.range 5).map (fun k => { pc := 0x20000, mask := 0x20#32 <<< k, st := .ready })

/-- ControlTransfers: taken and not taken branches and calls to the clause itself, and LOOP at 1 and at 2. -/
theorem witness_ControlTransfers :
    [Instr.bra (fG 0 0 0xFFFFF), .call (fG 0 0 0)].all (fun i => meetsW i id (fun t => t.w.rp 0 == 0xFFFFFFFF)) = true ∧
    [Instr.bra (fG 0 1 0xFFFFF), .call (fG 0 1 0)].all (fun i => meetsW i id (fun t => t.eff &&& ~~~ t.w.rp 0 == 0)) = true ∧
    meetsW (.br (fC 0 4 0 0)) (fun w => { w with s := [(4, 0x20000)] }) (fun t => okE (t.checkTarget (t.w.rs 4))) = true ∧
    meetsW (.loop (fC 1 63 63 63)) (fun w => { w with s := [(1, 1)] }) (fun t => t.w.rs 1 - 1 == 0) = true ∧
    meetsW (.loop (fC 1 63 63 63)) (fun w => { w with s := [(1, 2)] }) (fun t => t.w.rs 1 - 1 != 0) = true ∧
    meetsW (.brx (fA 0 2 4 0 1)) (fun w => { w with s := [(4, 0x20000)] }) (fun t => t.w.rs 4 == 0x20000) = true ∧
    runs (.callx (fA 0 2 4 1 1)) = true ∧
    meetsW (.yield (fH 0 0 0 0)) id (fun t => t.w.ring.length ≤ 4 && okE (t.fallThrough.putRing (switchRing (setRunPc t.w.ring t.nextHeader)))) = true ∧
    meetsW (.yield (fH 0 0 0 0)) (fun w => { w with ring := six.take 1 ++ List.replicate 3 { pc := 0x20000, mask := 0x80, st := .held .ret } ++ six.drop 1 }) (fun t => !okE (t.fallThrough.putRing (switchRing (setRunPc t.w.ring t.nextHeader)))) = true ∧
    meetsW (.bra (fG 0 0 0xFFFFF)) (fun w => { w with ring := six.take 5 }) (fun t => 4 < t.w.ring.length && !okE (t.putRing (t.w.ring ++ t.w.ring))) = true := by decide +kernel

/-- RingKeepsLanes: a ring with a running split, and groups that share its lanes out. -/
theorem witness_RingKeepsLanes :
    six.find? (fun x => x.st == .running) = some { pc := 0x20000, mask := 0x1F, st := .running } ∧
      ([{ pc := 0x20000, mask := 1, st := .ready }, { pc := 0x20004, mask := 0x1E, st := .ready }] : List Split).foldl (fun m sp => m ||| sp.mask) 0 = (0x1F : LaneMask) := by
  decide +kernel

/-- SplitsHeld: an empty return stack, a return inside the region and one that enters a region; RECONV, BSYNC with and without
accesses; and the whole warp returning to its top entry. -/
def e0 : RetEntry := { addr := 0x20000, mask := 0xFFFFFFFF }
def deep (w : Warp) : Warp := { w with depth := 1, hw := [e0] }
theorem witness_Returns :
    runs (.ret (fH 0 0 0 0)) = true ∧
    meetsW (.ret (fH 0 0 0 0)) deep (fun t => t.w.ckpt.depth < t.w.depth && okE (t.hold .ret)) = true ∧
    meetsW (.ret (fH 0 0 0 0)) (fun w => { w with depth := 1, hw := [{ e0 with addr := 2 }] }) (fun t => t.w.ckpt.depth < t.w.depth && !okE (t.hold .ret)) = true ∧
    [e0, { e0 with addr := 2 }].all (fun e => meetsW (.ret (fH 0 0 0 0)) (fun w => { w with depth := 1, hw := [e], ckpt := { w.ckpt with depth := 1 } })
      (fun t => t.w.depth ≤ t.w.ckpt.depth && t.mayPass && (match t.enter t.cl.header with
        | .ok t0 => t0.dev.bad.isEmpty && t0.w.stop != .stopped && okE (t0.hold .ret) == (e == e0)
        | _ => false))) = true ∧
    meetsW (.ret (fH 0 0 0 0)) (fun w => { deep w with ckpt := { w.ckpt with depth := 1 }, stop := .asked })
      (fun t => t.w.depth ≤ t.w.ckpt.depth && t.mayPass && (match t.enter t.cl.header with
        | .ok t0 => t0.w.stop == .stopped
        | _ => false)) = true ∧
    meetsW (.ret (fH 0 0 0 0)) (fun w => { deep w with ckpt := { w.ckpt with depth := 1 }, fence := some pendW })
      (fun t => t.w.depth ≤ t.w.ckpt.depth && !t.mayPass) = true ∧
    meetsW (.ret (fH 0 0 0 0)) (fun w => { w with
        depth := 2, hw := [{ e0 with mask := 0xFFFF }, { e0 with mask := 0xFFFF0000 }],
        ckpt := { w.ckpt with depth := 1 }, clause := w.clause.map (fun c => { c with eff := 0xFFFF }),
        ring := [{ pc := 0x20000, mask := 0xFFFF, st := .running }, { pc := 0x20000, mask := 0xFFFF0000, st := .held .ret }] })
      (fun t => t.w.ckpt.depth < t.w.depth && t.mayPass && (match t.hold .ret with
        | .ok u => decide (u.w.depth < t.w.ckpt.depth)
        | .error _ => false)) = true ∧
    meetsW (.ret (fH 0 0 0 0)) deep (fun t => t.w.ring.length == 1 && (t.w.ring.map Split.mask) == [t.eff] && t.w.running.isSome &&
      t.w.depth == 1 && okE (t.checkTarget 0x20000)) = true ∧
    runs (.retv (fA 0 2 4 0 1)) = true ∧
    meetsW (.retv (fA 0 2 4 0 1)) (fun w => { deep w with s := [(4, 0x20000)] }) (fun t => t.w.ckpt.depth < t.w.depth && okE (t.hold (.retv 2 4 false)) &&
      (lanes t.eff).all (fun l => t.w.link 2 4 false l == 0x20000)) = true := by decide +kernel
theorem witness_Holds :
    meetsW (.reconv (fG 0 0 0xFFFFF)) (fun w => { w with ring := w.ring.map (fun sp => { sp with mask := 9 }) })
      (fun t => okE (t.checkTarget (t.target (-1))) && okE (t.hold (.reconv (t.target (-1)))) && t.w.depth == 0) = true ∧
    meetsW (.reconv (fG 0 0 0x80000)) id (fun t => !okE (t.checkTarget (t.target (-0x80000)))) = true ∧
    meetsW (.bsync (fH 0 0 0 0)) id (fun t => t.w.quiet && okE (t.hold (.bsync t.nextHeader)) && t.w.depth == 0 && t.blk.warps.length == 1 &&
      t.w.life == .live && (t.w.ring.map Split.mask) == [t.eff]) = true ∧
    meetsW (.bsync (fH 0 0 0 0)) (fun w => { w with buf := [.fence] }) (fun t => !t.w.quiet) = true ∧
    meetsW (.bsync (fH 0 0 0 0)) (fun w => { w with depth := 1, hw := [{ addr := 2, mask := 0 }], ring := six ++ [{ pc := 0x20000, mask := 0x80000000, st := .ready }] })
      (fun t => t.w.quiet && !okE (t.putRing (t.w.ring ++ t.w.ring))) = true := by decide +kernel
theorem witness_ReturnStack :
    meetsW (.nop (fH 0 0 0 0)) (fun w => { w with depth := 65535 }) (fun t => t.w.depth == 65535) = true ∧
    meetsW (.nop (fH 0 0 0 0)) (fun w => { w with depth := 15 }) (fun t => t.w.depth < 16) = true ∧
    [16, 143].all (fun d => meetsW (.nop (fH 0 0 0 0)) (fun w => { w with depth := d })
      (fun t => 16 ≤ t.w.depth && t.w.depth < 144 && !t.w.ownStores (spillSlice (d - 16)) 16 && !t.w.ownReads (spillSlice (d - 16)) 16 && Cells.wf t.w.slices)) = true ∧
    meetsW (.nop (fH 0 0 0 0)) (fun w => { w with depth := 16, buf := [storeTo (.slice 0 204)] })
      (fun t => 16 ≤ t.w.depth && t.w.ownStores (spillSlice 0) 16) = true := by decide +kernel

/-- RegionSleepTrap: a descriptor that is read, one that is not legal, one beyond the count, one on no page and one behind a pending
fence or a transform operation, SLEEP of 0 and 64 cycles, and TRAP with a handler and without. -/
theorem witness_Regions :
    let reads (t : View) (p : List Byte → Bool) : Bool := okRead (t.readVa (t.blk.launch.descBase) 64) p
    let legal (bs : List Byte) : Bool := bytesNat bs 28 4 < 2 && bytesNat bs 56 8 == 0
    let free (t : View) : Bool := t.mayPass && t.w.held.isEmpty && t.blk.slotUse ≤ 48
    meetsW (.region (fH 0 0 0 0)) id (fun t => 0 < t.blk.launch.dcnt && reads t legal && free t) = true ∧
    meetsW (.region (fH 0 0 0 511)) id (fun t => t.blk.launch.dcnt ≤ 511) = true ∧
    meets (.region (fH 0 0 0 0)) (stand (.region (fH 0 0 0 0)) id id (fun s => { s with mem := Cells.setMany s.mem 0x31000 (List.replicate 64 255) }))
      (fun _ t => reads t (fun bs => !legal bs)) = true ∧
    meetsW (.region (fH 0 0 0 0)) (fun w => { w with fence := some pend }) (fun t => waitRead (t.readVa t.blk.launch.descBase 64)) = true ∧
    meets (.region (fH 0 0 0 0)) (stand (.region (fH 0 0 0 0)) id (fun b => { b with launch := { b.launch with descBase := 2 ^ 45 } }) id)
      (fun _ t => faultRead (t.readVa t.blk.launch.descBase 64)) = true ∧
    meetsW (.region (fH 0 0 0 0)) (fun w => { w with ops := [xOp (.xcrc (fA 1 2 0 0 0)) (.xqueued 1 [])], clause := w.clause.map (fun c => { c with word := 0xF1A00000 }) })
      (fun t => reads t legal && !t.mayPass) = true ∧
    meetsW (.fence (fH 0 0 0 33)) id (fun t => free t && t.w.loads.isEmpty && t.w.buf.isEmpty && t.w.ops.isEmpty && t.w.pushes.isEmpty &&
      !t.dev.netPending t.core t.w.num t.w.seq) = true ∧
    meetsW (.fence (fH 0 0 0 36)) (fun w => { w with buf := [storeTo (.phys 0x100000)] }) (fun t => free t && !t.w.buf.isEmpty) = true ∧
    meetsW (.fence (fH 0 0 0 33)) (fun w => { w with loads := [loadTo (.v 2 1) false], seq := 1, clause := w.clause.map (fun c => { c with word := 0xF1A00000 }) })
      (fun t => free t && t.w.loads.any (fun ld => ld.seq < t.w.seq)) = true ∧
    meetsW (.fence (fH 0 0 0 36)) (fun w => { w with fence := some pendW }) (fun t => !t.mayPass) = true ∧
    runs (.fence (fH 0 0 0 1)) = true ∧ runs (.fence (fH 0 0 0 32)) = true ∧
    runs (.sleep (fH 0 0 0 0)) = true ∧ meetsW (.sleep (fH 0 0 0 1)) (fun w => { w with stop := .asked }) (fun t => t.w.stop == .asked) = true ∧
    meetsW (.sleep (fH 0 0 0 1)) id (fun t => t.w.stop != .asked) = true := by decide +kernel
theorem witness_Trap :
    let at32 (w : Warp → Warp) (h : Nat) : State := stand (.trap (fH 0 0 0 1)) w id (fun s => { s with mem := Cells.setMany s.mem 32 (leBytes 8 h) })
    meets (.trap (fH 0 0 0 511)) (stand (.trap (fH 0 0 0 511)) id id id) (fun s _ => (s.ctxDesc 0 [500]).trap == 0) = true ∧
    meets (.trap (fH 0 0 0 1)) (at32 id 0x20000)
      (fun s t => (s.ctxDesc 0 [500]).trap == 0x20000 && okE (t.checkTarget 0x20000) && t.effLanes.all (fun l => !t.w.ownStores (.slice l 176) 16 && !t.w.ownReads (.slice l 176) 16)) = true ∧
    meets (.trap (fH 0 0 0 1)) (at32 (fun w => { w with buf := [storeTo (.slice 3 188)] }) 0x20000)
      (fun s t => (s.ctxDesc 0 [500]).trap == 0x20000 && okE (t.checkTarget 0x20000) && t.effLanes.any (fun l => t.w.ownStores (.slice l 176) 16)) = true ∧
    meets (.trap (fH 0 0 0 1)) (at32 id 0x20002) (fun _ t => !okE (t.checkTarget 0x20002)) = true := by decide +kernel

/-- ExceptionEntries: a fault that replays and one that does not. -/
theorem witness_ExceptionEntries :
    ({ flt 8 0 with addr := some 0x20004 } : FaultInfo).replayable = true ∧ (flt 4 1).replayable = false ∧ (flt 8 4).replayable = false ∧
    meetsW (.nop (fH 0 0 0 0)) id (fun t => !t.cl.todo.isEmpty && t.w.waiting.isNone && t.w.enrol == List.replicate 4 none && t.w.jobFault.isNone &&
      t.dev.devEvents.isEmpty && !t.single) = true ∧
    ((stand (.nop (fH 0 0 0 0)) (fun w => { w with loads := [loadTo (.v 2 1) false] }) id id).view.map
      (fun t => !t.cl.todo.isEmpty && t.single)) = some true := by
  decide +kernel

/-! ### Memory -/

def offs0 : List (Nat × Int) := [(0, 0), (3, 0)]
/-- Lane 3 beyond the object. -/
def offsFar : List (Nat × Int) := [(0, 0), (3, 0x10000)]

/-- AccessChecks: an object entry that passes and others that fail each check in turn; a leaf of program DRAM. -/
theorem witness_AccessChecks :
    let s := stand (.nop (fH 0 0 0 0)) id id id
    okE (s.objWords 0 0 5 []) = true ∧ errE (s.objCheck 0 0 4 [0] .read []) 9 3 = true ∧ errE (s.objCheck 0 0 5 [1] .read []) 9 15 = true ∧
    errE (s.objCheck 0 0 6 [1] .deferred []) 9 1 = true ∧ okE (s.objCheck 0 0 5 [0, 2, 3] .rmw []) = true ∧
    (match s.walk 0 0x100000 [] with | .ok l => physRegion l.pa == .dram && !pteD l.pte && !pteCP l.pte && okE (pageCheck .rmw false false false 0x100000 l) | .error _ => false) = true := by
  decide +kernel

/-- LoadsIssue and StoresIssue: every form, with its lanes accepted and with a lane refused, the last word of the object, and a
scratchpad bank under a mode change. -/
theorem witness_LoadsIssue :
    (let i : Instr := .ld (fD 7 8 5)
     meets i (stand i id id id) (fun s t => t.w.fence.isNone && okE (s.objLanes 0 0 false 5 [0, 2, 3] .read false 4 offs0)) &&
     meets i (stand i (fun w => { w with v := [(32 * 8 + 3, 0x10000)] }) id id) (fun s _ => errE (s.objLanes 0 0 false 5 [0, 2, 3] .read false 4 offsFar) 7 0) &&
     meets i (stand i (fun w => { w with v := [(32 * 8 + 3, 0xFFFC)] }) id id) (fun s _ =>
       okE (s.objLanes 0 0 false 5 [0, 2, 3] .read false 4 ([(0, 0), (3, 0xFFFC)])))) = true ∧
    (let i : Instr := .ldu (fD 7 0 5)
     meets i (stand i id id id) (fun s _ => okE (s.objLanes 0 0 false 5 [0, 2, 3] .read false 8 (offs0.take 1)))) = true ∧
    (let i : Instr := .ldp (fD 7 0 0)
     meets i (stand i id id id) (fun s t => okE (s.privLanes 0 t.blk.launch 0 .read offs0))) = true ∧
    (let i : Instr := .lds (fD 7 0 0)
     meets i (stand i id id id) (fun _ t => !t.blk.offBusy 0 && okE (scratchLanes t.blk 0 4 offs0)) &&
     meets i (stand i id (fun b => { b with bankChanges := [{ warp := 1, seq := 0, banks := 15, mode := 0 }] }) id) (fun _ t => t.blk.offBusy 0)) = true ∧
    (let i : Instr := .ldg (fD 7 0 6)
     meets i (stand i id id id) (fun s t => !t.gangBusy 0 && okE (s.gangLanes 0 t.blk 6 .read 4 offs0))) = true := by decide +kernel
theorem witness_StoresIssue :
    (let i : Instr := .st (fD 7 8 5)
     meets i (stand i id id id) (fun s _ => okE (s.objLanes 0 0 false 5 [0, 2, 3] .write false 4 offs0)) &&
     meets i (stand i (fun w => { w with v := [(32 * 8 + 3, 0x10000)] }) id id) (fun s _ => errE (s.objLanes 0 0 false 5 [0, 2, 3] .write false 4 offsFar) 7 0)) = true ∧
    (let i : Instr := .stu (fD 7 0 5)
     meets i (stand i id id id) (fun s _ => okE (s.objLanes 0 0 false 5 [0, 2, 3] .write false 8 (offs0.take 1)))) = true ∧
    (let i : Instr := .stp (fD 7 0 0)
     meets i (stand i id id id) (fun s t => okE (s.privLanes 0 t.blk.launch 0 .write offs0))) = true ∧
    (let i : Instr := .sts (fD 7 0 0)
     meets i (stand i id id id) (fun _ t => !t.blk.offBusy 0 && okE (scratchLanes t.blk 0 4 offs0))) = true ∧
    (let i : Instr := .stg (fD 7 0 6)
     meets i (stand i id id id) (fun s t => !t.gangBusy 0 && okE (s.gangLanes 0 t.blk 6 .write 4 offs0))) = true := by decide +kernel

/-- Loads that wait: one of seq_cst order behind a store, in every form, and one of a deferred page during a commit. -/
def scD (data : BitVec 7) (obj : BitVec 6) : FormD := { fD data 0 obj with ext := some 0x2B000 }
def aCommit : Commit :=
  { warp := some (1, 5), issued := some (0, 0), scope := 4, tags := [], needTag := false, wantTag := false, tagSince := 0, sent := false, sentSince := 0, awaited := [],
    status := 0, failPa := none, released := false }
theorem witness_LoadsWait :
    ordD (scD 7 5) = 4 ∧ 2 ≤ (scoD (scD 7 5) 4).toNat ∧
    [Instr.ld (scD 7 5), .ldu (scD 7 5), .ldp (scD 7 0), .lds (scD 7 0), .ldg (scD 7 6)].all (fun i =>
      meetsW i (fun w => { w with buf := [storeTo (.phys 0x200000)] }) (fun t => !t.drained)) = true ∧
    (let i : Instr := .ld (fD 7 0 9)
     meets i (stand i id (fun b => { b with commit := some aCommit }) id) (fun s t => (match s.objLanes 0 0 false 9 [0, 2, 3] .read false 4 offs0 with
       | .ok (_, as) => t.blk.commit.isSome && as.any (fun a => pteD a.pte)
       | .error _ => false))) = true := by decide +kernel

/-- A buffered store of a word, at a place, and a load of one lane from it. -/
def storeAt (loc : Loc) : StoreOp := { seq := 0, pc := 0x20004, loc := loc, bytes := leBytes 4 7, add := none, rel := false, sc := false, sco := 3 }
def loadAt (loc : Loc) : LoadOp :=
  { seq := 1, pc := 0x20004, since := 0, dst := .v 7 1, size := 4, lanes := [{ lane := 3, va := none, loc := loc }], acq := false, plain := true, dfr := false, glob := true }
def nop : Instr := .nop (fH 0 0 0 0)
/-- The plain state with the warp changed, the block changed, the device changed. -/
def withW (w : Warp → Warp) : State := stand nop w id id
def withB (b : Block → Block) : State := stand nop id b id
def withD (d : State → State) : State := stand nop id id d
/-- Warp 0 of core 0 and its block meet `p`. -/
def has (s : State) (p : Block → Warp → Bool) : Bool :=
  match s.block 0 with
  | some b => (match b.warp 0 with | some w => p b w | none => false)
  | none => false

/-- MemoryEvents: stores that may be performed to DRAM, to the last word of the scratchpad and to a peer's, one held behind a fence, a
load from DRAM; no home slice holds a sector that a conservator has changed, though one holds a clean sector. -/
theorem witness_MemoryEvents :
    let agrees (s : State) : Bool := s.home.all (fun e => e.old.isNone)
    (let s := { withW (fun w => { w with buf := [.store (storeAt (.phys 0x100000))] }) with home := [{ sector := 0x2000, dirty := true, stream := false, old := none }] }
     has s (fun _ w => s.mayPerform 0 w 0 (storeAt (.phys 0x100000)) && agrees s && s.bad.isEmpty && Memory.wf s.mem)) = true ∧
    (let s := withW (fun w => { w with buf := [.store (storeAt (.bank 0 0xFFFC))] })
     has s (fun b w => s.mayPerform 0 w 0 (storeAt (.bank 0 0xFFFC)) && decide (0xFFFC + 4 ≤ b.scratchSize))) = true ∧
    (let s0 := withW (fun w => { w with buf := [.store (storeAt (.peer 1 0xFFFC))] })
     let s := { s0 with cores := s0.cores ++ s0.cores.map (fun c => { c with num := 1 }) }
     has s (fun _ w => s.mayPerform 0 w 0 (storeAt (.peer 1 0xFFFC)) && ((s.block 1).map (fun p => decide (0xFFFC + 4 ≤ p.scratchSize))) == some true)) = true ∧
    (let s := withW (fun w => { w with buf := [.fence, .store (storeAt (.phys 0x100000))] })
     has s (fun _ w => !s.mayPerform 0 w 1 (storeAt (.phys 0x100000)))) = true ∧
    (let s := withW (fun w => { w with loads := [loadAt (.phys 0x100000)] })
     has s (fun _ w => w.loads == [loadAt (.phys 0x100000)] && w.fence.isNone && agrees s && !s.bankGone (.phys 0x100000) 4)) = true ∧
    (loadAt (.got 5)).lanes.map LanePlace.loc = [5].map Loc.got := by decide +kernel

/-- HomeSlices: the last byte of a sector, written by a conservator and by a store. -/
theorem witness_HomeSlices :
    (0x1000FF / 128 = 0x2001 ∧ 0x1000FF % 128 + [1].length ≤ 128) ∧
    ((({ State.reset with home := [{ sector := 0x2001, dirty := true, stream := false, old := none }] } : State).applyWrite 0x1000FF [1]).home.map HomeSector.sector) = [0x2001] ∧
    (({ State.reset with home := [{ sector := 0x2001, dirty := true, stream := false, old := some (List.replicate 128 3) }] } : State).evict 0x2001).home = [] ∧
    ({ Via.plain with cls := 3 } : Via).vault = false ∧ 3 ≤ ({ Via.plain with cls := 3 } : Via).cls ∧
    (({ State.reset with home := [{ sector := 0x2001, dirty := true, stream := false, old := none }] } : State).home.map HomeSector.sector).Nodup := by
  decide +kernel

/-- FifoCacheBanks: a bank that is no ring and one that is, rings with and without room, a length of 2^36 and one more, the masks that
BANKCFG refuses and takes, a change under way, and a change that completes. -/
def fifoBank (r : List Word32) (b : Block) : Block :=
  { b with bankMode := Cells.set b.bankMode 5 3, fifo := if r.isEmpty then [] else [{ bank := 5, head := 4000, words := r }] }
def aPut : Instr := .fput (fD 7 0 5)
def aGet : Instr := .fget (fD 7 0 5)
/-- An FPUT and an FGET of seq_cst order and block scope. -/
def putSc : FormD := { fD 7 0 5 with ext := some 0x2B000 }
theorem witness_Fifo :
    let at5 (i : Instr) (n : Nat) (w : Warp → Warp) (b : Block → Block) (p : View → Bool) : Bool :=
      meets i (stand i w (fun x => b (fifoBank (List.replicate n 1) x)) id) (fun _ t => p t)
    let open' (t : View) : Bool := t.w.wait.isNone && !t.blk.changing 5 && Cells.get t.blk.bankMode 5 == 3 && t.w.fence.isNone
    let turn (t : View) (put : Bool) : Bool := (t.blk.fifoQueue 5 put).headD t.w.num == t.w.num
    [aPut, aGet].all (fun i =>
      meets i (stand i id id id) (fun _ t => t.w.wait.isNone && !t.blk.changing 5 && Cells.get t.blk.bankMode 5 != 3) &&
      at5 i 1 (fun w => { w with wait := some (.failed 9 6) }) id (fun t => t.w.wait == some (.failed 9 6)) &&
      at5 i 1 id (fun b => { b with bankChanges := [{ warp := 1, seq := 0, banks := 32, mode := 0 }] }) (fun t => t.w.wait.isNone && t.blk.changing 5)) = true ∧
    at5 aPut 4065 id id (fun t => open' t && turn t true && decide (4096 < (t.blk.ring 5).words.length + t.effLanes.length)) = true ∧
    at5 aPut 4064 id id (fun t => open' t && turn t true && decide ((t.blk.ring 5).words.length + t.effLanes.length ≤ 4096)) = true ∧
    at5 aPut 1 id (fun b => { b with fifoWait := [(5, true, 1)] }) (fun t => open' t && !turn t true) = true ∧
    [aPut, aGet].all (fun i => at5 i 40 (fun w => { w with fence := some pend }) id
      (fun t => t.w.wait.isNone && !t.blk.changing 5 && Cells.get t.blk.bankMode 5 == 3 && t.w.fence.isSome)) = true ∧
    at5 aGet 31 id id (fun t => open' t && turn t false && decide ((t.blk.ring 5).words.length < t.effLanes.length)) = true ∧
    at5 aGet 32 id id (fun t => open' t && turn t false && decide (t.effLanes.length ≤ (t.blk.ring 5).words.length)) = true := by
  decide +kernel
theorem witness_FifoOrders :
    ordD putSc = 4 ∧ 2 ≤ (scoD putSc 2).toNat ∧
    [Instr.fput putSc, .fget putSc].all (fun i => meets i (stand i (fun w => { w with buf := [storeTo (.bank 0 0)] }) (fifoBank (List.replicate 32 1)) id)
      (fun _ t => !t.drained && t.w.wait.isNone && t.w.fence.isNone)) = true := by decide +kernel
theorem witness_CacheBanks :
    [Instr.cctlIfetch (fH 0 4 5 0), .cctlFlush (fH 0 4 5 1), .cctlWb (fH 0 4 5 2)].all (fun i =>
      meetsW i (fun w => { w with s := [(5, 2 ^ 36 + 1)] }) (fun t => decide (2 ^ 36 < (t.w.rs 5).toNat)) &&
      meetsW i (fun w => { w with s := [(5, 2 ^ 36)], buf := [.store (storeAt (.phys 0))] }) (fun t => t.w.rs 5 != 0 && !t.w.buf.isEmpty) &&
      meetsW i id (fun t => t.w.rs 5 == 0) &&
      meetsW i (fun w => { w with s := [(5, 2 ^ 36)] }) (fun t => t.w.buf.isEmpty && !t.dev.netPending t.core t.w.num t.w.seq && decide ((t.w.rs 5).toNat ≤ 2 ^ 36))) = true ∧
    (match (stand nop id id id).view with | some t => okE (t.dev.codeWord t.core t.blk.launch 0x20000) | none => false) = true ∧
    (let i : Instr := .bankcfg (fH 0 4 0 3)
     meetsW i (fun w => { w with s := [(4, 2 ^ 48)] }) (fun t => decide (2 ^ 48 ≤ (t.w.rs 4).toNat)) &&
     meetsW i (fun w => { w with s := [(4, 1)] }) (fun t => (newModes t.blk.bankMode 1 3 48).map Prod.fst == [0, 1, 2, 3]) &&
     meetsW i (fun w => { w with s := [(4, 0xF)] }) (fun t => ((List.range 48).filter (fun k => Cells.get (newModes t.blk.bankMode 0xF 3 48) k == 2)) == [] && t.blk.bankChanges.isEmpty) &&
     runs i && meets i (stand i (fun w => { w with s := [(4, 0xF)] }) (fun b => { b with bankChanges := [{ warp := 1, seq := 0, banks := 1, mode := 0 }] }) id) (fun _ t => !t.blk.bankChanges.isEmpty)) = true ∧
    (let s := withB (fun b => { b with bankChanges := [{ warp := 0, seq := 0, banks := 0xF, mode := 0 }] })
     has s (fun b _ => !b.bankChanges.isEmpty && b.warps.all (fun w => !w.usesBanks 0 0xF) && b.jobs.isEmpty && Cells.wf b.bankMode)) = true := by decide +kernel

/-- AtomicsIssue: every form accepted, an address beyond the object, a region entry that must wait, a scratchpad and a gang. -/
def free (t : View) : Bool := t.mayEnter && t.w.held.isEmpty && t.blk.slotUse ≤ 48
theorem witness_AtomicsIssue :
    ([((.atom (fE 4 8 5 1 0 0 0 10 9) : Instr), 4, [0, 2, 3]), (.atomc (fE 4 8 5 0 0 0 0 13 10), 8, [0, 2, 3]), (.atomx (fE 4 8 5 0 0 0 0 0 12), 16, [0, 2]),
      (.rwlrd (fE 0 8 5 0 0 0 0 13 0), 8, [0, 2]), (.rwlwr (fE 0 8 5 0 0 0 0 13 0), 8, [0, 2]), (.rwlup (fE 0 8 5 0 0 0 0 13 0), 8, [0, 2]),
      (.rwlrel (fE 0 8 5 0 0 0 0 13 0), 8, [0, 2])] : List (Instr × Nat × List Nat)).all (fun x =>
        meets x.1 (stand x.1 id id id) (fun s t => (match s.objLanes 0 0 false 5 x.2.2 .rmw false x.2.1 offs0 with
          | .ok (_, as) => free t && !t.commitHolds as && t.w.ring.length ≤ 4
          | .error _ => false)) &&
        meets x.1 (stand x.1 (fun w => { w with v := [(32 * 8 + 3, 0x10000)] }) id id) (fun s _ => errE (s.objLanes 0 0 false 5 x.2.2 .rmw false x.2.1 offsFar) 7 0) &&
        meets x.1 (stand x.1 (fun w => { w with fence := some pend }) id id) (fun _ t => !t.mayEnter)) = true ∧
    (let i : Instr := .atoms (fE 4 8 0 1 0 0 0 10 9)
     meetsW i id (fun t => !t.blk.offBusy 0 && okE (scratchLanes t.blk 0 4 offs0) && t.w.fence.isNone) &&
     meetsW i (fun w => { w with fence := some pend }) (fun t => t.w.fence.isSome && okE (scratchLanes t.blk 0 4 offs0)) &&
     meetsW i (fun w => { w with v := [(32 * 8 + 3, 0x10000)] }) (fun t => !okE (scratchLanes t.blk 0 4 offsFar)) &&
     meets i (stand i id (fun b => { b with bankChanges := [{ warp := 1, seq := 0, banks := 15, mode := 0 }] }) id) (fun _ t => t.blk.offBusy 0)) = true ∧
    (let i : Instr := .spadd (fE 4 8 6 0 0 0 0 10 0)
     meets i (stand i id id id) (fun s t => !t.gangBusy 0 && free t && okE (s.gangLanes 0 t.blk 6 .rmw 4 offs0)) &&
     meets i (stand i (fun w => { w with v := [(32 * 8 + 3, 0x10000)] }) id id) (fun s t => !okE (s.gangLanes 0 t.blk 6 .rmw 4 offsFar)) &&
     meets i (stand i (fun w => { w with fence := some pend }) id id) (fun _ t => !t.mayEnter) &&
     meets i (stand i id (fun b => { b with bankChanges := [{ warp := 1, seq := 0, banks := 15, mode := 0 }] }) id) (fun _ t => t.gangBusy 0)) = true := by decide +kernel

/-- AtomicResults at the ends of the ranges: the largest reader count, a full count of waiting writers, the byte mask 5. -/
theorem witness_AtomicResults :
    (fE 4 8 5 1 0 0 7 0 0x289).x.getLsbD 7 = true ∧ (fE 4 8 5 1 0 0 7 0 0x289).x.getLsbD 9 = true ∧ (fE 4 8 5 1 0 0 7 0 0x289).sub.getLsbD 0 = true ∧
    (2 ^ 32 - 1 : Nat) < 2 ^ 32 ∧ (16383 : Nat) < 2 ^ 14 ∧ (65535 : Nat) < 2 ^ 16 := by decide +kernel

/-- AtomicPerformed: an atomic of a lane under way at a word of DRAM. -/
def anAtomic (loc : Loc) : Op :=
  { seq := 0, pc := 0x20004, instr := .atom (fE 4 8 5 1 0 0 0 10 9), since := 0, body := .atomic 4 8 [{ lane := 3, va := none, loc := loc }] [(3, 1, 0)] }
theorem witness_AtomicPerformed :
    (let s := withW (fun w => { w with ops := [anAtomic (.phys 0x100000)] })
     (match s.viewOf 0 0 with
      | some t => (t.w.atomics.map AtomicOp.op) == [anAtomic (.phys 0x100000)] && t.w.life == .live && !s.accessHeld 0 t.w 0 (.phys 0x100000) 4
      | none => false) && s.bad.isEmpty && s.home.isEmpty && Memory.wf s.mem) = true := by
  decide +kernel

/-! ### Copies, deferred stores and commits -/

/-- A copy descriptor in lanes 0 to 7 of v20: 16 bytes to row 0 of the scratchpad, no barrier. -/
def descRow (rb : Nat) : Warp → Warp := fun w => { w with v := [(640 + 1, 0xFFFF0000), (640 + 2, BitVec.ofNat 32 (65536 + rb))] }
def jobOf (gather : Bool) (rows : List Word32) (rb : Nat) (warp pc : Nat) : Job :=
  { gather := gather, toGlobal := false, words := [0, 0xFFFF0000, BitVec.ofNat 32 (65536 + rb), 0, 0, 0, 0, 0], rows := rows, warp := warp,
    pc := BitVec.ofNat 64 pc, seq := 0, ident := 0, obj := 5, entry := [], disp := 0, state := .waiting, row := 0, moved := [], crc := 0xFFFFFFFF,
    since := 0, trans := [], reads := [], writes := [], unknown := false, dfr := false }
def cpyE : FormE := { fE 20 0 5 0 0 0 0 0 0 with la := 2 }
def busy (n : Nat) (b : Block) : Block := { b with jobs := List.replicate n (jobOf false [] 16 0 0) }

/-- Copies: a descriptor that passes and a length that does not, in both opcodes; 63 and 64 jobs, a pending fence and a bank under a
mode change; CPYW at its bound and one below it, and with a fault of a job; the legal descriptor. -/
theorem witness_Copies :
    ([(.cpy cpyE, false), (.cpyg cpyE, true)] : List (Instr × Bool)).all (fun x =>
      let rows : List Word32 := if x.2 then List.replicate 32 0 else []
      let j := jobOf x.2 rows 16 0 0
      meets x.1 (stand x.1 (descRow 16) (busy 63) id) (fun _ t => !j.bankBusy t.blk && okE (j.check t) && decide (t.blk.jobs.length < 64) && t.w.fence.isNone) &&
      meets x.1 (stand x.1 (descRow 16) (busy 64) id) (fun _ t => !j.bankBusy t.blk && okE (j.check t) && decide (64 ≤ t.blk.jobs.length)) &&
      meets x.1 (stand x.1 (descRow 16) (fun b => { b with bankChanges := [{ warp := 1, seq := 0, banks := 1, mode := 0 }] }) id) (fun _ t => j.descOk && j.bankBusy t.blk) &&
      meets x.1 (stand x.1 (descRow 15) id id) (fun _ t => errE ((jobOf x.2 rows 15 0 0).check t) 2 6)) = true ∧
    (let i : Instr := .cpyw (fH 0 0 0 1)
     meets i (stand i id (busy 1) id) (fun _ t => t.w.jobFault.isNone && (t.blk.jobs.filter (fun j => j.warp == 0)).length == 1) &&
     meets i (stand i id (busy 2) id) (fun _ t => t.w.jobFault.isNone && (t.blk.jobs.filter (fun j => j.warp == 0)).length == 2) &&
     meetsW i (fun w => { w with jobFault := some (flt 9 3) }) (fun t => t.w.jobFault == some (flt 9 3))) = true ∧
    (jobOf false [] 16 0 0).descOk = true ∧ (jobOf true (List.replicate 32 0) 32768 0 0).descOk = true := by decide +kernel

/-- JobsRun: a job that may start and one behind a conflicting job; one that has a row to move, to the scratchpad and from it, one that has
moved everything, one whose page is not resident (at 32 TB) and one whose object entry gives no right. -/
def rowJob (base : Nat) : Job :=
  let words : List Word64 := [BitVec.ofNat 64 base, 65536, 0x701, 0]
  { jobOf false [] 16 0 0 with entry := words, state := .running, reads := [⟨true, 0x100000, 0x100010⟩], writes := [⟨false, 0, 16⟩] }
def withJobs (js : List Job) : State := withB (fun b => { b with jobs := js })
theorem witness_JobsRun :
    let fails (base : Nat) (replays : Bool) : Bool :=
      let j := rowJob base
      let s := withJobs [j]
      has s (fun b _ => !j.over && (match s.jobMove 0 b j.skip 0 0 with | .fails f => f.replayable == replays | _ => false))
    (let j : Job := { rowJob 0x100000 with state := .waiting }
     let s := withJobs [j]
     has s (fun b w => b.jobs == [j] && !j.awaitsStores 0 w && !s.jobAwaitsNet 0 b j && !j.dfr) && has (withJobs [j, j]) (fun b _ => (b.jobs.take 1).any j.conflicts)) = true ∧
    [false, true].all (fun up =>
      let j := { rowJob 0x100000 with toGlobal := up }
      let s := withJobs [j]
      has s (fun b _ => !j.tr && !j.entry.isEmpty && s.bad.isEmpty && s.home.isEmpty && !s.placeHeld 0 (.phys 0x100000) 16 &&
        (match s.jobPlace b.launch (objOfWords j.entry) (if up then .write else .read) j 0 (j.gOff 0).toNat with
         | .ok (.mem _ pa, dfr, _) => pa == 0x100000 && !dfr
         | _ => false))) = true ∧
    ({ rowJob 0x100000 with row := 1 } : Job).over = true ∧
    fails (2 ^ 45) true = true ∧ fails (2 ^ 42 + 2 ^ 40) false = true := by decide +kernel

/-- The unit that such a job moves next is its only one. -/
theorem witness_JobUnit (base : Nat) (s : State) : (rowJob base).skip.nextUnit s 0 = (0, 0) := by
  have hc : (rowJob base).count = 1 := (rfl : _ = (rowJob 0).count).trans (by decide +kernel)
  have hr : ∀ r, (rowJob 0).rowLen r = 16 := fun r => by
    simp [Job.rowLen, show (rowJob 0).gather = false from rfl, show (rowJob 0).tr = false by decide +kernel, show (rowJob 0).rb = 16 by decide +kernel]
  have hu : ∀ r, (rowJob base).unitsOf r = 1 := fun r => (rfl : _ = (rowJob 0).unitsOf r).trans (by rw [Job.unitsOf, hr])
  have hs : (rowJob base).skip = rowJob base := by
    have hm : (List.range ((rowJob base).unitsOf (rowJob base).row)).all ((rowJob base).hasMoved (rowJob base).row) = false := by rw [hu]; rfl
    rw [Job.skip, Job.settleRows, hm]
    simp
  simp [hs, Job.nextUnit, hc, hu, Nat.mod_one, show (rowJob base).row = 0 from rfl, show (rowJob base).hasMoved 0 0 = false from rfl]

/-- DeferredIssue: DST within the quota and beyond it, with a full log, refused; COMMIT of a grid outside a cooperative record, of the block,
and while one is in progress. -/
def aTag : TagRef := { source := 0, tag := 0 }
def recOf (lo : Nat) (op : BitVec 6) : DefRec := { word := BitVec.ofNat 46 0x40000, op := op, tag := 0, lo := BitVec.ofNat 32 lo, hi := 0 }
def closing : Commit :=
  { warp := none, issued := none, scope := 2, tags := [aTag], needTag := false, wantTag := true, tagSince := 0, sent := true, sentSince := 0,
    awaited := [{ tag := 0, source := 0, dest := 300 }], status := 0, failPa := none, released := false }
def tentRec : TentRec := { bin := 0, rcd := recOf 1 0 }
theorem witness_DeferredIssue :
    (let i : Instr := .dst (fE 12 10 9 0 0 0 0 0 0)
     let asks (s : State) := (s.objLanes 0 0 false 9 [0, 2, 3] .deferred false 4 offs0 s.dstRoute)
     meets i (stand i id (fun b => { b with tag := some aTag }) id) (fun s t => decide (t.w.tent.length + 2 ≤ 4096 / t.blk.launch.nwarps) && okE (asks s) && t.blk.tag.isSome && decide (t.blk.logUse + 2 ≤ 4096)) &&
     meets i (stand i id (fun b => { b with tag := none }) id) (fun _ t => t.blk.tag.isNone) &&
     meets i (stand i (fun w => { w with tent := List.replicate 4095 tentRec }) id id) (fun _ t => decide (4096 / t.blk.launch.nwarps < t.w.tent.length + 2)) &&
     meets i (stand i (fun w => { w with v := [(32 * 10 + 3, 0x10000)] }) id id) (fun s _ => errE (s.objLanes 0 0 false 9 [0, 2, 3] .deferred false 4 offsFar s.dstRoute) 7 0)) = true ∧
    (meetsW (.commit (fH 0 0 0 4)) id (fun t => !t.blk.launch.coop) &&
     meetsW (.commit (fH 0 0 0 2)) id (fun t => t.blk.commit.isNone && !t.blk.deferredReads && free t && t.blk.tag.isNone) &&
     meets (.commit (fH 0 0 0 2)) (stand (.commit (fH 0 0 0 2)) id (fun b => { b with tag := some aTag }) id) (fun _ t => t.blk.commit.isNone && !t.blk.deferredReads && free t && t.blk.tag.isSome) &&
     meetsW (.commit (fH 0 0 0 2)) (fun w => { w with fence := some pend }) (fun t => !t.mayEnter) &&
     meets (.commit (fH 0 0 0 2)) (stand (.commit (fH 0 0 0 2)) id (fun b => { b with commit := some closing }) id) (fun _ t => t.blk.commit.isSome)) = true := by decide +kernel

/-- DeferredOperators and ExactSumsOrderless: records of the operators named, the later of two equal sources last. -/
theorem witness_DeferredOperators :
    [((0 : BitVec 12), recOf 1 0), (0, recOf 0xFFFFFFFF 0)].all (fun r => r.2.op == 0) = true ∧
    [((0 : BitVec 12), recOf 1 18), (0, recOf 2 18)].all (fun r => r.2.op == 18 && decide (r.1.toNat ≤ (0 : BitVec 12).toNat)) = true ∧
    [((0 : BitVec 12), recOf 1 12)].all (fun r => r.2.op == 12) = true ∧ [((0 : BitVec 12), recOf 1 13)].all (fun r => r.2.op == 13) = true ∧
    (fmtF32.read 0x7FC00000).isNan = true ∧
    recPa (recOf 2 18) = 0x100000 ∧ 0x100004 / 8 * 8 = 0x100000 ∧ recPa { recOf 2 18 with op := 19 } = 0x100000 ∧
    [((0 : BitVec 12), recOf 1 18), (5, recOf 2 18), (4, recOf 3 18)] = [(0, recOf 1 18)] ++ (5, recOf 2 18) :: [(4, recOf 3 18)] ∧ (5 : BitVec 12).toNat ≤ (5 : BitVec 12).toNat ∧ (4 : BitVec 12).toNat < (5 : BitVec 12).toNat := by decide +kernel
theorem witness_ExactSums : [((0 : BitVec 12), recOf 1 3), (1, recOf 2 3)].Perm [(1, recOf 2 3), (0, recOf 1 3)] := List.Perm.swap _ _ _

/-- DeferredDelivery: a log of one tagged record, a bin on its way and room at its channel, a bin from outside, a close message with nothing
left to apply and with one record, an acknowledgement, and the two timeouts at their bounds. -/
def aBin : ShippedBin := { source := 0, recs := [recOf 1 0] }
def aClose : CloseMsg := { tag := 0, source := 0, dest := 0 }
theorem witness_Cataloguer :
    (let s := withB (fun b => { b with log := [{ bin := 0, rcd := recOf 1 0, tagged := true }] })
     has s (fun b _ => b.log.all LogRec.tagged && decide ((enterBin ((s.cat 0).bin 0) (recOf 1 0)).length < 128) && (s.cat 0).bins.isEmpty && (s.cat 0).turn == 0)) = true ∧
    ((withD id).cat (galleryOf 7)).turn ≠ 7 % 8 ∧
    (withD (fun s => { s with travelling := [{ channel := 0, bin := aBin }] })).travelling.length = 1 ∧
    ({ aBin with source := 64 } : ShippedBin).source.extractLsb' 6 6 ≠ (withD id).deviceNo ∧
    (let s := withD (fun s => { s with closes := [aClose] })
     s.closes == [aClose] && (s.parkedOf 0 (s.closeGroup aClose)).isEmpty && s.travelling.isEmpty) = true ∧
    (let s := withD (fun s => { s with closes := [aClose], parked := [{ channel := 0, bin := aBin }] })
     s.parkedOf 0 (s.closeGroup aClose) == [(0, recOf 1 0)] && s.bad.isEmpty && s.home.isEmpty && Memory.wf s.mem && !s.rangeHeld 0x100000 4) = true ∧
    (let s := withD (fun s => { s with closes := [aClose], parked := [{ channel := 0, bin := aBin }], vchChange := [(0, 1)] })
     s.parkedOf 0 (s.closeGroup aClose) == [(0, recOf 1 0)] && s.rangeHeld 0x100000 4) = true := by decide +kernel
theorem witness_Commits :
    (withD (fun s => { s with acks := [aClose] })).acks[0]? = some aClose ∧
    (let s := stand nop id (fun b => { b with commit := some closing }) (fun s => { s with clock := 4500000 })
     has s (fun b _ => b.commit == some closing) && decide (closing.sentSince.toNat + 2000 * 2250 ≤ s.clock.toNat) && closing.awaited.any (fun m => decide (256 ≤ m.dest)) &&
       closing.wantTag && decide (closing.tagSince.toNat + 1000 * 2250 ≤ s.clock.toNat)) = true ∧
    (let s := withD (fun s => { s with clock := 225000000, cats := [{ gallery := 0, turn := 0, held := [], timedOut := [(7, 0)], waiting := [0], bins := [], sent := [] }] })
     (s.cat 0).timedOut == [(7, 0)] && decide (0 + 100000 * 2250 ≤ s.clock.toNat) && (s.cat 0).waiting == [0] && has s (fun b _ => b.commit.isNone)) = true := by decide +kernel
theorem witness_TagGrant :
    (let s := withD (fun s => { s with cats := [{ gallery := 0, turn := 0, held := [], timedOut := [], waiting := [0], bins := [], sent := [] }] })
     (s.freeTag 0).isSome && (s.cat 0).waiting == [0] && has s (fun b _ => b.commit.isNone)) = true := by decide +kernel

/-! ### Tiles -/

def tileH (own tgt : Nat) (st : HandleSt) (fmt : BitVec 4) (acc : Bool) (rb : Nat) : HandleEntry :=
  { HandleEntry.zero with own := own, tgt := tgt, st := st, fmt := fmt, acc := acc, rb := rb }
/-- Two warps of the block; handle 0 an accumulator of f32, 1 and 2 tiles of f16 with K = 64, 3 free, 4 freed by warp 1, 5 handed over, 6
handed to warp 0, 7 of warp 1, 8 an f16 tile of K = 32, 9 the second accumulator, 10 and 11 integer tiles; the active plane from handle 2. -/
def plane : Plane := { Plane.zero with valid := true, fmt := 1, src := 2, k := 64 }
def tiles (b : Block) : Block :=
  let hs := [tileH 0 0 .owned 0 true 0, tileH 0 0 .owned 1 false 7, tileH 0 0 .owned 1 false 7, .zero, tileH 1 0 .freed 0 false 0, tileH 0 1 .handed 1 false 7,
    tileH 1 0 .handed 1 false 7, tileH 1 0 .owned 1 false 7, tileH 0 0 .owned 1 false 3, tileH 0 0 .owned 0 true 0, tileH 0 0 .owned 6 false 3, tileH 0 0 .owned 10 true 0]
  { b with launch := { b.launch with nwarps := 2 }, handles := hs ++ List.replicate 20 .zero, array := { ArrayRec.zero with p0 := plane } }
def array (f : ArrayRec → ArrayRec) (b : Block) : Block := let b1 := tiles b; { b1 with array := f b1.array }
def meetsT (i : Instr) (p : State → View → Bool) : Bool := meets i (stand i id tiles id) p
def meetsA (i : Instr) (f : ArrayRec → ArrayRec) (p : View → Bool) : Bool := meets i (stand i id (array f) id) (fun _ t => p t)
def stOf (t : View) (h : Nat) : HandleSt := (t.blk.handles.getD h .zero).st

/-- TileHandles: a handle beyond 31 tiles is refused only where the block has fewer; free, freed, another warp's, handed over, good. -/
theorem witness_HandleChecks :
    (stand nop id (fun b => tiles { b with launch := { b.launch with tiles := 12 } }) id).view.map (fun t =>
      okE (t.checkHandles [0, 1] [0, 1]) && errE (t.checkHandles [12] []) 4 0xA && errE (t.checkHandles [3] [3]) 4 1 && errE (t.checkHandles [4] [4]) 4 1 &&
        errE (t.checkHandles [7] [7]) 4 2 && errE (t.checkHandles [5] [5]) 4 3) = some true := by decide +kernel
theorem witness_Handles :
    meets (.talloc (fF 12 1 7 0)) (stand (.talloc (fF 12 1 7 0)) id (fun b => tiles { b with launch := { b.launch with tiles := 12 } }) id) (fun _ t => decide (t.blk.launch.tiles ≤ 12)) = true ∧
    meetsT (.talloc (fF 0 1 7 0)) (fun _ t => stOf t 0 == .owned) = true ∧ meetsT (.talloc (fF 4 1 7 0)) (fun _ t => stOf t 4 == .freed && (t.blk.handles.getD 4 .zero).own != t.w.num) = true ∧
    meetsT (.talloc (fF 3 1 7 0)) (fun _ t => stOf t 3 == .free) = true ∧
    meetsT (.tfree (fF 1 0 0 0)) (fun _ t => okE (t.checkHandles [1] [1])) = true ∧ meetsT (.tfree (fF 7 0 0 0)) (fun _ t => errE (t.checkHandles [7] [7]) 4 2) = true ∧
    (let i : Instr := .thand (fH 0 4 0 1)
     meets i (stand i (fun w => { w with s := [(4, 1)] }) tiles id) (fun _ t => okE (t.checkHandles [1] [1]) && free t && ((t.w.rs 4).toNat == 1)) &&
     meets i (stand i id tiles id) (fun _ t => (t.w.rs 4).toNat == t.w.num) &&
     meets i (stand i (fun w => { w with s := [(4, 1)], fence := some pendW }) tiles id) (fun _ t => !t.mayPass)) = true ∧
    meetsT (.ttake (fH 0 0 0 3)) (fun _ t => stOf t 3 == .free) = true ∧ meetsT (.ttake (fH 0 0 0 7)) (fun _ t => stOf t 7 == .owned) = true ∧
    meetsT (.ttake (fH 0 0 0 6)) (fun _ t => stOf t 6 == .handed && (t.blk.handles.getD 6 .zero).tgt == t.w.num && t.w.wait.isNone && free t) = true ∧
    meets (.ttake (fH 0 0 0 6)) (stand (.ttake (fH 0 0 0 6)) (fun w => { w with fence := some pendW }) tiles id) (fun _ t => stOf t 6 == .handed && !t.mayPass) = true := by decide +kernel
/-- Waits that have failed, one at an instruction that goes on, one for a handle that has another target, and the watch over both kinds. -/
theorem witness_HandleWaits :
    let wait (i : Instr) (x : Waiting) (p : View → Bool) : Bool := meets i (stand i (fun w => { w with wait := some x }) tiles id) (fun _ t => p t)
    wait (.talloc (fF 3 1 7 0)) (.failed 4 0xC) (fun t => t.w.wait == some (.failed 4 0xC)) = true ∧
    wait (.ttake (fH 0 0 0 6)) (.failed 4 1) (fun t => t.w.wait == some (.failed 4 1)) = true ∧
    meets (.ttake (fH 0 0 0 6)) (stand (.ttake (fH 0 0 0 6)) id (fun b => { tiles b with handles := (tiles b).handles.set 6 (tileH 1 2 .handed 1 false 7) }) id)
      (fun _ t => stOf t 6 == .handed && (t.blk.handles.getD 6 .zero).tgt != t.w.num && (t.blk.handles.getD 6 .zero).own != t.w.num && t.w.wait.isNone) = true ∧
    meets (.ttake (fH 0 0 0 6)) (stand (.ttake (fH 0 0 0 6)) (fun w => { w with wait := some (.take 6) })
        (fun b => { tiles b with handles := (tiles b).handles.set 6 (tileH 1 2 .handed 1 false 7) }) id)
      (fun _ t => stOf t 6 == .handed && (t.blk.handles.getD 6 .zero).tgt != t.w.num && t.w.wait == some (.take 6)) = true ∧
    ((stand nop (fun w => { w with wait := some (.take 4) }) tiles id).view.map (fun t => t.w.wait == some (.take 4) && stOf t 4 == .freed)) = some true ∧
    ((stand nop (fun w => { w with wait := some (.alloc 1) }) tiles id).view.map (fun t => t.w.wait == some (.alloc 1) && stOf t 1 == .owned)) = some true := by
  decide +kernel
theorem witness_Planes :
    meetsT (.tldw (fF 0 2 0 0)) (fun _ t => okE (t.checkHandles [2] [2]) && (t.blk.handles.getD 2 .zero).k == 64 && !t.blk.array.ownv) = true ∧
    meetsT (.tldw (fF 0 0 0 0)) (fun _ t => okE (t.checkHandles [0] [0]) && (t.blk.handles.getD 0 .zero).acc) = true ∧
    meetsT (.tldw (fF 0 8 0 0)) (fun _ t => okE (t.checkHandles [8] [8]) && (t.blk.handles.getD 8 .zero).k == 32) = true ∧
    meetsT (.tldw (fF 0 8 0 16)) (fun _ t => okE (t.checkHandles [8] [8]) && (fF 0 8 0 16).mods.getLsbD 4) = true ∧
    meetsA (.tldw (fF 0 2 0 0)) (fun a => { a with ownv := true, ownw := 1 }) (fun t => t.blk.array.ownv && t.blk.array.ownw != t.w.num) = true ∧
    meetsA (.tswap (fF 0 0 0 1)) (fun a => { a with p1 := plane }) (fun t => !t.blk.array.ownv && t.blk.array.shadow.valid && !t.chainDue) = true ∧
    meetsT (.tswap (fF 0 0 0 0)) (fun _ t => !t.blk.array.shadow.valid) = true ∧
    meets (.tswap (fF 0 0 0 0)) (stand (.tswap (fF 0 0 0 0)) (fun w => { w with
        ops := [{ seq := 0, pc := 0x20004, instr := .tmmac (fF 0 1 0 1), since := 0, body := .chain 0 1 [] [] 0 false }], clause := w.clause.map (fun c => { c with start := 1 }) })
      (array (fun a => { a with p1 := plane })) id) (fun _ t => !t.blk.array.ownv && t.blk.array.shadow.valid && t.chainDue) = true ∧
    meetsA (.tswap (fF 0 0 0 0)) (fun a => { a with ownv := true, ownw := 1 }) (fun t => t.blk.array.ownv) = true := by decide +kernel

def aTile (slot : Nat) (acc : Bool) (img : Cells 8) (todo : List TilePiece) : Op :=
  { seq := 0, pc := 0x20004, instr := .tzero (fF 1 0 0 0), since := 0, body := .tile slot acc img todo false }
/-- TileVersions: a free slot, an aligned pair, no slot left, and a version that completes. -/
theorem witness_TileVersions :
    (stand nop id tiles id).view.map (fun t => t.blk.findSlot false == some 0 && t.blk.findSlot true == some 0 && t.dev.bad.isEmpty) = some true ∧
    ((List.range 32).map (fun h => { tileH 0 0 .owned 0 true 0 with v := true, slot := 4 * (h % 32) })).length = 32 ∧
    (stand nop id (fun b => { b with handles := (List.range 32).map (fun h => { tileH 0 0 .owned 0 true 0 with v := true, slot := 4 * h }),
                                     warps := b.warps.map (fun w => { w with ckpt := { w.ckpt with handles := (List.range 32).map (fun h => (h, { tileH 0 0 .owned 0 true 0 with v := true, slot := 4 * h + 2 })) } }) }) id).view.map
      (fun t => t.blk.findSlot true == none && t.blk.findSlot false == none) = some true ∧
    (stand nop (fun w => { w with ops := [aTile 0 false [(0, 1)] []] }) tiles id).view.map (fun t => Cells.wf t.blk.slots && t.w.ops.length == 1) = some true ∧
    (stand nop id tiles id).view.map (fun t => !t.dev.accessHeld 0 t.w 0 (.phys 0x100000) 16 && t.dev.home.isEmpty && t.dev.bad.isEmpty) = some true := by decide +kernel

/-- TileElementwise: operands of one format and shape, of several formats, and each form of TSCALE; a row group that exists and one that does not. -/
theorem witness_TileElementwise :
    meetsT (.tzero (fF 1 0 0 0)) (fun _ t => okE (t.checkHandles [1] [1])) = true ∧ meetsT (.ttrans (fF 1 2 0 0)) (fun _ t => okE (t.ttransPre (fF 1 2 0 0))) = true ∧
    meetsT (.ttrans (fF 1 8 0 0)) (fun _ t => !okE (t.ttransPre (fF 1 8 0 0))) = true ∧
    meetsT (.tadd (fF 1 2 2 0)) (fun _ t => okE (t.binaryPre (fF 1 2 2 0))) = true ∧ meetsT (.tmul (fF 1 2 0 0)) (fun _ t => errE (t.binaryPre (fF 1 2 0 0)) 4 5) = true ∧
    meetsT (.tmul (fF 0 9 9 0)) (fun _ t => okE (t.binaryPre (fF 0 9 9 0))) = true ∧
    [fF 1 0 3 2, fF 1 2 0 16, fF 1 2 0 0, fF 1 2 0 1].all (fun f => meets (.tscale f) (stand (.tscale f) id tiles id) (fun _ t => okE (t.scalePre f))) = true ∧
    meetsT (.tred (fF 0 2 0 0)) (fun _ _ => true) = true ∧ meetsT (.tabsmax (fF 0 2 0 0)) (fun _ _ => true) = true ∧
    [Instr.tgetrow (fH 0 4 0 1), .tsetrow (fH 0 4 0 1)].all (fun i =>
      meets i (stand i (fun w => { w with s := [(4, 7)] }) tiles id) (fun _ t => okE (t.checkHandles [1] [1]) && (t.w.rs 4).toNat == 7) &&
      meets i (stand i (fun w => { w with s := [(4, 8)] }) tiles id) (fun _ t => okE (t.checkHandles [1] [1]) && (t.w.rs 4).toNat == 8)) = true ∧
    meets (.tgetrow (fH 0 4 0 0)) (stand (.tgetrow (fH 0 4 0 0)) (fun w => { w with s := [(4, 15)] }) tiles id) (fun _ t => (t.blk.handles.getD 0 .zero).acc) = true := by decide +kernel

/-- MatrixSteps: a loaded plane, one that is not, a withheld array; TMMAC of one rank, and past handle 31. -/
def mmaF : FormF := { fF 0 1 2 1 with la := 1 }
theorem witness_MatrixSteps :
    meetsT (.tmma mmaF) (fun s t => okE (t.tmmaPre mmaF) && t.blk.array.active.valid && t.blk.array.active.src == 2 && !s.arrayWithheld t.core &&
      (stepPlan 1 1 64 64).isSome && (t.blk.handles.getD 1 .zero).fmt == 1 && !intFmt 1) = true ∧
    meetsA (.tmma mmaF) (fun a => { a with p0 := { plane with stale := true } }) (fun t => okE (t.tmmaPre mmaF) && t.blk.array.active.stale) = true ∧
    meets (.tmma mmaF) (stand (.tmma mmaF) id tiles (fun s => { s with service := { s.service with withheld := [0] } })) (fun s t => okE (t.tmmaPre mmaF) && s.arrayWithheld t.core) = true ∧
    (let f : FormF := fF 11 10 2 5
     meets (.tmma f) (stand (.tmma f) id (array (fun a => { a with p0 := { plane with fmt := 6 } })) id) (fun _ t => okE (t.tmmaPre f) && intFmt (t.blk.handles.getD 10 .zero).fmt)) = true ∧
    (let f : FormF := fF 0 1 0 1
     meetsT (.tmmac f) (fun s t => okE (t.checkHandles [0, 1] [0, 1]) && (t.rankArray 0).isSome && t.blk.launch.rank == 0 && decide (1 ≤ t.blk.launch.gsize) && !s.arrayWithheld t.core &&
       streamFmt 1 == 1 && accFmt 1 1 == some 0)) = true ∧
    meetsT (.tmmac (fF 0 31 1 1)) (fun _ _ => true) = true ∧
    (let f : FormF := fF 0 1 0 1
     meets (.tmmac f) (stand (.tmmac f) id tiles (fun s => { s with service := { s.service with withheld := [0] } }))
       (fun s t => okE (t.checkHandles [0, 1] [0, 1]) && (t.rankArray 0).isSome && s.arrayWithheld t.core)) = true := by decide +kernel

/-- A chain of one rank before its step and after it, in FP and in integers. -/
theorem witness_Chain :
    let chain (hd ha fmt k : Nat) (w : BitVec 4) (held : List Nat) : Bool :=
      let f : FormF := fF (BitVec.ofNat 5 hd) (BitVec.ofNat 5 ha) 0 (BitVec.ofNat 5 fmt)
      let s := stand nop (fun x => { x with ops := [{ aTile 0 true [] [] with instr := .tmmac f, body := .chain 0 k [(0, [0]), (7, [1])] [] 0 false }] })
        (array (fun a => { a with p0 := { plane with fmt := w } })) (fun s => { s with service := { s.service with withheld := held } })
      match s.viewOf 0 0 with
      | some t => t.w.ops.length == 1 && s.bad.isEmpty && Cells.wf t.blk.slots && (match t.rankArray 0 with
        | some x => s.arrayWithheld x.1 == !held.isEmpty && x.2.active.valid && (k == 0 || x.2.active.k == (t.blk.handles.getD ha .zero).k) &&
            accFmt (streamFmt (f.mods.extractLsb' 0 3)) x.2.active.fmt == some (t.blk.handles.getD hd .zero).fmt
        | none => false)
      | none => false
    chain 0 1 1 1 1 [] = true ∧ chain 0 1 1 1 1 [0] = true ∧ chain 0 1 1 0 1 [] = true := by decide +kernel

/-- TileMoves: a tile from the scratchpad and from memory, beyond it, to memory; records that are legal and one that is not. -/
def recAt (bs : List Byte) (s : State) : State := { s with mem := Cells.setMany s.mem 0x100000 bs }
def regs (xs : Cells 64) (w : Warp) : Warp := { w with s := xs }
theorem witness_TileMoves :
    (let i : Instr := .tld (fH 0 4 0 1)
     meetsT i (fun _ t => okE (t.checkHandles [1] [1]) && t.blk.bankChanges.isEmpty && (match t.moveScratch (fH 0 4 0 1) (t.blk.handles.getD 1 .zero) false with
       | .ok ps => ps.all (fun p => !pteD p.pte)
       | _ => false)) &&
     meets i (stand i (regs [(4, 0x10000)]) tiles id) (fun _ t => !okE (t.moveScratch (fH 0 4 0 1) (t.blk.handles.getD 1 .zero) false))) = true ∧
    [Instr.tld (fH 0 4 0 1), .tst (fH 0 4 0 1)].all (fun i => meets i (stand i id (fun b => { tiles b with bankChanges := [{ warp := 1, seq := 0, banks := 15, mode := 0 }] }) id)
      (fun _ t => okE (t.checkHandles [1] [1]) && t.blk.offBusy 0 && (t.moveParts (t.blk.handles.getD 1 .zero) false).any (fun p => t.blk.offBusy (t.moveOff (fH 0 4 0 1) p.2.1 + p.2.2.1 : Nat)))) = true ∧
    [Instr.tld (fH 0 4 0 40), .tst (fH 0 4 0 40)].all (fun i => meetsT i (fun _ t => okE (t.checkHandles [8] [8]) && !(t.blk.handles.getD 10 .zero).is16)) = true ∧
    meetsT (.tst (fH 0 4 0 1)) (fun _ t => okE (t.moveScratch (fH 0 4 0 1) (t.blk.handles.getD 1 .zero) false)) = true ∧
    (let f : FormH := fH 5 4 6 0x101
     meets (.tld f) (stand (.tld f) (regs [(5, 5)]) tiles id) (fun _ t => okE (t.moveGlobal f (t.blk.handles.getD 1 .zero) false .read)) &&
     meets (.tld f) (stand (.tld f) (regs [(5, 9)]) (fun b => { tiles b with commit := some closing }) id) (fun _ t => match t.moveGlobal f (t.blk.handles.getD 1 .zero) false .read with
       | .ok (_, _, ps) => ps.any (fun p => pteD p.pte)
       | _ => false) &&
     meets (.tld f) (stand (.tld f) (regs [(5, 99)]) tiles id) (fun _ t => !okE (t.moveGlobal f (t.blk.handles.getD 1 .zero) false .read)) &&
     meets (.tst f) (stand (.tst f) (regs [(5, 5)]) tiles id) (fun _ t => okE (t.moveGlobal f (t.blk.handles.getD 1 .zero) false .write)) &&
     meets (.tst f) (stand (.tst f) (regs [(5, 6)]) tiles id) (fun _ t => !okE (t.moveGlobal f (t.blk.handles.getD 1 .zero) false .write))) = true := by decide +kernel
def recBytes (fmt clamp : Nat) : List Byte := leBytes 4 fmt ++ leBytes 4 clamp ++ leBytes 4 0x3F800000 ++ leBytes 20 0
def withRec (i : Instr) (sd : Word64) (fmt clamp : Nat) : State := stand i (regs [(4, 0x100000), (5, sd)]) tiles (recAt (recBytes fmt clamp))
/-- The same with handle 3 a second f16 tile. -/
def tiles3 (b : Block) : Block := { tiles b with handles := (tiles b).handles.set 3 (tileH 0 0 .owned 1 false 7) }
theorem witness_TileConverts :
    (let f : FormH := fH 0 4 0 1
     let i : Instr := .tcvt f
     meets i (withRec i 0 1 0x3F800000) (fun _ t => okE (t.checkHandles [1] [1]) && okRead (t.readVa 0x100000 32) (fun bs => Param.legal bs [0, 1, 2, 3, 4, 6, 7] && (cvtShape 64 (Param.ofBytes bs).fmt).isSome && (t.blk.findSlot false).isSome)) &&
     meets i (withRec i 0 1 0) (fun _ t => okRead (t.readVa 0x100000 32) (fun bs => !Param.legal bs [0, 1, 2, 3, 4, 6, 7])) &&
     meets i (stand i (fun w => { regs [(4, 0x100000)] w with fence := some pend }) tiles id) (fun _ t => waitRead (t.readVa 0x100000 32)) &&
     meets i (stand i (regs [(4, 2 ^ 45)]) tiles id) (fun _ t => faultRead (t.readVa (2 ^ 45) 32)) &&
     meets i (stand i (regs [(4, 0x100010)]) tiles id) (fun _ t => okE (t.checkHandles [1] [1]))) = true ∧
    (let f : FormH := fH 0 4 0 8
     meets (.tcvt f) (withRec (.tcvt f) 0 0 0x3F800000) (fun _ t => okE (t.checkHandles [8] [8]) && okRead (t.readVa 0x100000 32) (fun bs =>
       Param.legal bs [0, 1, 2, 3, 4, 6, 7] && (cvtShape 32 (Param.ofBytes bs).fmt).isNone))) = true ∧
    (let i : Instr := .tquant (fH 0 4 0 2)
     meetsT i (fun _ t => okE (t.checkHandles [2] [2]) && (t.blk.handles.getD 2 .zero).k != 128) &&
     meets i (stand i (regs [(4, 0x100000)]) (fun b => { tiles b with handles := (tiles b).handles.set 2 (tileH 0 0 .owned 3 false 7) }) (recAt (recBytes 5 0x3F800000))) (fun _ t =>
       okE (t.checkHandles [2] [2]) && (t.blk.handles.getD 2 .zero).k == 128 && okRead (t.readVa 0x100000 32) (fun bs => Param.legal bs [5] && (t.blk.findSlot false).isSome))) = true ∧
    (let i : Instr := .tquant (fH 0 4 0 34)
     let shaped (t : View) : Bool := okE (t.checkHandles [2, 3] [2, 3]) && (t.blk.handles.getD 2 .zero).k == 64 && (t.blk.handles.getD 3 .zero).k == 64
     meets i (stand i (regs [(4, 0x100000)]) tiles3 (recAt (recBytes 5 0x3F800000))) (fun _ t => shaped t && okRead (t.readVa 0x100000 32) (fun bs => Param.legal bs [5])) &&
     meets i (stand i (regs [(4, 0x100000)]) tiles3 (recAt (recBytes 1 0x3F800000))) (fun _ t => shaped t && okRead (t.readVa 0x100000 32) (fun bs => !Param.legal bs [5])) &&
     meets i (stand i (regs [(4, 0x100010)]) tiles3 id) (fun _ t => shaped t && (t.w.rs 4).toNat % 32 != 0) &&
     meets i (stand i (regs [(4, 2 ^ 45)]) tiles3 id) (fun _ t => shaped t && faultRead (t.readVa (2 ^ 45) 32)) &&
     meets i (stand i (fun w => { regs [(4, 0x100000)] w with fence := some pend }) tiles3 id) (fun _ t => shaped t && waitRead (t.readVa 0x100000 32))) = true := by
  decide +kernel

/-- A group of two members that gathers two contributions. -/
def aGroup : GroupEntry :=
  { grp := 0, ctx := 0, members := 3, dests := 1, exp := 2, op := 3, hold := false, epoch := 1, tmo := 1, wch := 1, win := 0x200000, stat := 0x300000,
    key := 0, retired := [] }

/-- TDRAIN to the aperture: accepted in memory mode, a tile that is no accumulator, an unaligned base, an illegal record, an unaligned
and an unreadable one, a row without a page, and four drains, of the warp itself and of another. -/
def aDrain (n : Nat) : Push := { dest := 1, msg := .store { sender := 0, ident := 0, stores := [] }, drain := some n, sc := false, src := none }
theorem witness_Drain :
    (let i : Instr := .tdrain (fH 5 4 0 0)
     meets i (withRec i (2 ^ 42) 0 0x3F800000) (fun _ t => okE (t.checkHandles [0] [0]) && t.drains.isEmpty && t.w.fence.isNone && decide ((t.w.rs 5).toNat % 65536 + 64 * 64 * 4 ≤ 65536) && okRead (t.readVa 0x100000 32) (fun bs => Param.legal bs [0, 1, 2, 3, 4, 6] && (rowsE t).all (fun i => okE (t.drainLeaf false (i / 2) (2 ^ 42 + BitVec.ofNat 64 (256 * i)))))) &&
     meets i (withRec i (2 ^ 42 + 8) 0 0x3F800000) (fun _ t => (t.w.rs 5).toNat % 16 != 0) &&
     meets i (withRec i (2 ^ 42) 5 0x3F800000) (fun _ t => okRead (t.readVa 0x100000 32) (fun bs => !Param.legal bs [0, 1, 2, 3, 4, 6])) &&
     meets i (stand i (fun w => { w with pushes := [aDrain 1, aDrain 2, aDrain 3, aDrain 4] }) tiles id) (fun _ t => decide (4 ≤ t.drains.length) && decide (4 ≤ t.ownDrains.length))) = true ∧
    (let i : Instr := .tdrain (fH 5 4 0 0)
     let at5 (w : Warp → Warp) (sa : Word64) (p : View → Bool) : Bool :=
       meets i (stand i (fun x => w (regs [(4, sa), (5, 2 ^ 42)] x)) tiles (recAt (recBytes 0 0x3F800000))) (fun _ t => okE (t.checkHandles [0] [0]) && p t)
     at5 id 0x100010 (fun t => (t.w.rs 4).toNat % 32 != 0) && at5 id (2 ^ 45) (fun t => faultRead (t.readVa (2 ^ 45) 32)) &&
     at5 (fun w => { w with fence := some pend }) 0x100000 (fun t => waitRead (t.readVa 0x100000 32)) &&
     meets i (withRec i (2 ^ 45) 0 0x3F800000) (fun _ t => (cutRow (2 ^ 45) [0]) == [(0, [0])] && !okE (t.drainLeaf false 0 (2 ^ 45))) &&
     meets i (stand i (regs [(4, 0x100000), (5, 2 ^ 42)]) (fun b => let x := tiles b
         { x with warps := x.warps ++ x.warps.map (fun w => { w with num := 1, pushes := [aDrain 1, aDrain 2, aDrain 3, aDrain 4] }) }) (recAt (recBytes 0 0x3F800000)))
       (fun _ t => decide (4 ≤ t.drains.length) && decide (t.ownDrains.length < 4) && t.w.fence.isNone)) = true ∧
    (let i : Instr := .tdrain (fH 5 4 0 32)
     let rows (t : View) : Bool := okRead (t.readVa 0x100000 32) (fun bs => Param.legal bs [0, 2] && (rowsE t).all (fun i =>
       okE (t.drainLeaf true (i / 2) (2 ^ 42 + 2 ^ 40 + BitVec.ofNat 64 (256 * i)))))
     meets i (withRec i (2 ^ 42 + 2 ^ 40) 0 0x3F800000) (fun s t => rows t && (s.groupEntry 0 0).isNone) &&
     [([] : List Push), [aDrain 1, aDrain 2, aDrain 3, aDrain 4]].all (fun ps =>
       let s1 := stand i (fun w => { regs [(4, 0x100000), (5, 2 ^ 42 + 2 ^ 40)] w with pushes := ps }) tiles
         (fun s => { recAt (recBytes 0 0x3F800000) s with groups := [aGroup] })
       meets i s1 (fun s t => rows t && (s.groupEntry 0 0).isSome && t.ownDrains.length == ps.length && t.drains.length == ps.length))) = true ∧
    meetsT (.tdrain (fH 5 4 0 1)) (fun _ t => !(t.blk.handles.getD 1 .zero).acc) = true := by decide +kernel

/-! ### Barriers, counters, records, queues, tables -/

def memAt (a : Nat) (bs : List Byte) (s : State) : State := { s with mem := Cells.setMany s.mem a bs }
def barObj (exp pend : Nat) (bal : Word32) (ph : BitVec 4) (sco : BitVec 3) : BarObj :=
  { exp := exp, pend := pend, bal := bal, ph := ph, sco := sco, nt := false, res := 0, nrec := 0 }

/-- CounterObjects: the largest counts, the change that completes a phase, each misuse, a stamp of the same step and of a greater one. -/
theorem witness_CounterObjects :
    (barObj 65535 65535 0 0 3).exp < 65536 ∧ (let o := barObj 1 0 0 15 3; o.exp ≠ 0 ∧ o.pend = 0 ∧ o.bal = 0 ∧ o.res = 0) ∧
    (barObj 1 1 0 0 4).sco = 4 ∧ ({ barObj 1 1 0 0 3 with res := 1 } : BarObj).res ≠ 0 ∧
    MemoryWf (withD id) ∧ ((withD id).readDw 0x200000).extractLsb' 0 48 < (1 : BitVec 48) ∧ (0 : BitVec 48) ≤ ((withD id).readDw 0x200000).extractLsb' 0 48 := by
  unfold MemoryWf
  decide +kernel

/-- The barrier instruction `f` with the object of `o` at 0x100000, its count in s5 and its fourth register in s6. -/
def atBar (i : Instr) (o : BarObj) (n d : Word64) (w : Warp → Warp) (p : View → Bool) : Bool :=
  meets i (stand i (fun x => w { x with s := [(4, 0x100000), (5, n), (6, d)] }) id (memAt 0x100000 o.bytes)) (fun _ t =>
    (match t.counterLoc true 0x100000 16 with
     | .ok loc => !t.placeBusy loc 16 && (match t.dev.readLoc 0 0 loc 16 with
       | .ok bs => BarObj.ofBytes bs == o && p t
       | _ => false)
     | _ => false))
def open4 : BarObj := barObj 4 4 0 2 3
def reach (i : Instr) (n d : Word64) (p : View → Bool) : Bool := atBar i open4 n d id (fun t => (open4.misuse true t.blk.launch.coop).isNone && p t)
/-- An object that is malformed, places that are busy or not free, and a word in the scratchpad. -/
theorem witness_BarrierWaitsStops :
    let is : List Instr := [.barenrol (fH 0 4 5 1), .bararrive (fH 6 4 5 5), .barexpect (fH 6 4 5 1), .barwait (fH 6 4 5 3)]
    let loc (i : Instr) (w : Warp → Warp) (b : Block → Block) (p : View → Bool) : Bool :=
      meets i (stand i (fun x => w { x with s := [(4, 0x100000)] }) b id) (fun _ t => p t)
    is.all (fun i => loc i (fun w => { w with fence := some pend }) id (fun t => t.counterLoc true 0x100000 16 == .ok (.phys 0x100000) && t.placeBusy (.phys 0x100000) 16) &&
      loc i (fun w => { w with s := [(4, 8)] }) id (fun t => !okE (t.counterLoc true 8 16)) &&
      atBar i (barObj 0 0 0 0 3) 1 0 id (fun t => ((barObj 0 0 0 0 3).misuse true t.blk.launch.coop).isSome)) = true ∧
    ([Instr.barenrol (fH 0 4 5 0), .bararrive (fH 6 4 5 4), .barexpect (fH 6 4 5 0), .barwait (fH 6 4 5 2)].all (fun i =>
      loc i (fun w => { w with s := [] }) (fun b => { b with bankChanges := [{ warp := 1, seq := 0, banks := 15, mode := 0 }] }) (fun t => t.blk.offBusy 0))) = true ∧
    atBar (.barinit (fH 6 4 5 23)) { open4 with res := 1 } 4 64 id (fun _ => true) = true ∧
    atBar (.barinit (fH 6 4 5 21)) open4 4 64 id (fun _ => true) = true ∧
    loc (.barinit (fH 6 4 5 23)) (fun w => { w with s := [(4, 0x100000), (6, 63)] }) id (fun t => (t.w.rs 6).toNat % 64 != 0) = true ∧
    atBar (.bararrive (fH 6 4 5 7)) open4 0 0 (fun w => { w with buf := [storeTo (.phys 0x200000)] }) (fun t => !t.drained) = true := by decide +kernel

theorem witness_BarrierForms :
    [(0 : Word64), 1, 65535, 65536].all (fun n => atBar (.barinit (fH 6 4 5 23)) open4 n 64 id (fun _ => true)) = true ∧
    atBar (.barinit (fH 6 4 5 23)) open4 1 (2 ^ 54) id (fun t => decide (2 ^ 54 ≤ (t.w.rs 6).toNat)) = true ∧
    atBar (.barinit (fH 6 4 5 25)) open4 1 64 id (fun t => !t.blk.launch.coop) = true ∧
    runs (.barenrol (fH 0 0 0 9)) = true ∧ [(0 : Word64), 1].all (fun n => reach (.barenrol (fH 0 4 5 1)) n 0 (fun _ => true)) = true ∧
    reach (.bararrive (fH 6 4 5 29)) 0 0 (fun t => free t && t.drained && decide (4 ≤ open4.pend)) = true ∧
    reach (.bararrive (fH 6 4 0 33)) 0 0 (fun t => free t && t.drained && decide (open4.pend < 5)) = true ∧
    reach (.barexpect (fH 6 4 5 1)) 16 0 (fun t => decide (t.w.held.length < 8)) = true ∧
    atBar (.barexpect (fH 6 4 5 1)) open4 16 0 (fun w => { w with held := List.replicate 8 (.stamp (.phys 0) 0) }) (fun t => decide (8 ≤ t.w.held.length)) = true ∧
    reach (.barwait (fH 6 4 5 3)) 1 0 (fun t => open4.ph != (t.w.rs 5).extractLsb' 0 4) = true ∧
    [(0 : Word64), 100].all (fun d => reach (.barwait (fH 6 4 5 3)) 2 d (fun t => open4.ph == (t.w.rs 5).extractLsb' 0 4)) = true := by decide +kernel
theorem witness_Stamps :
    (let i : Instr := .stamptry (fH 0 4 5 1)
     meets i (stand i (regs [(4, 0x100000), (5, 3)]) id id) (fun _ t => t.counterLoc true 0x100000 8 == .ok (.phys 0x100000) && !t.placeBusy (.phys 0x100000) 8) &&
     meets i (stand i (regs [(4, 4)]) id id) (fun _ t => !okE (t.counterLoc true 4 8))) = true ∧
    (let i : Instr := .stampset (fH 0 4 5 0)
     meets i (stand i (regs [(4, 0x100000), (5, 3)]) id id) (fun _ t => t.counterLoc true 0x100000 8 == .ok (.phys 0x100000) && decide (t.w.held.length < 8)) &&
     meets i (stand i (fun w => { regs [(4, 0x100000), (5, 3)] w with held := List.replicate 8 (.stamp (.phys 0) 0) }) id id) (fun _ t => decide (8 ≤ t.w.held.length)) &&
     meets i (stand i (regs [(4, 4)]) id id) (fun _ t => !okE (t.counterLoc true 4 8))) = true := by decide +kernel

/-- BarrierWaitsEnd: a wait for a phase that has gone, one for the present phase, one at its bound; one whose place is in a region under a
mode change, or in a bank under one, and one without a page. -/
def waitFor (g : Bool) (a : Word64) (tok : BitVec 4) (clock bound : Word64) (b : Block → Block) (d : State → State) : State :=
  stand nop (fun w => { w with outst := some (.barwait 0x20004 0xFFFFFFFF g a tok true 1 0 bound) }) b
    (fun s => d { memAt 0x100000 open4.bytes s with clock := clock })
theorem witness_BarrierWaits :
    let at0 (s : State) (p : View → Bool) : Bool := match s.viewOf 0 0 with | some t => p t | none => false
    let sees (t : View) (loc : Loc) : Bool := (match t.dev.readLoc 0 0 loc 16 with | .ok bs => BarObj.ofBytes bs == open4 | .error _ => false)
    [waitFor true 0x100000 1 0 9 id id, waitFor true 0x100000 2 8 9 id id, waitFor true 0x100000 2 9 9 id id].all (fun s => at0 s (fun t =>
      t.counterLoc true 0x100000 16 == .ok (.phys 0x100000) && !s.locHeld (.phys 0x100000) 16 && sees t (.phys 0x100000))) = true ∧
    at0 (waitFor true 0x100000 2 9 9 id (fun s => { s with vchChange := [(0, 1)] })) (fun t =>
      t.counterLoc true 0x100000 16 == .ok (.phys 0x100000) && t.dev.locHeld (.phys 0x100000) 16) = true ∧
    at0 (waitFor false 0 2 9 9 (fun b => { b with bankChanges := [{ warp := 1, seq := 0, banks := 15, mode := 0 }] }) id) (fun t =>
      okE (t.counterLoc false 0 16) && t.blk.offBusy 0) = true ∧
    at0 (waitFor true (2 ^ 45) 2 9 9 id id) (fun t => match t.counterLoc true (2 ^ 45) 16 with | .error e => e.cls != 0 | .ok _ => false) = true := by
  decide +kernel

/-- CountersAndMonitors: counters of each kind, PERF of a SYS launch and of another, records that a monitor takes and refuses. -/
def sysB (b : Block) : Block := { b with launch := { b.launch with sys := true } }
def monRec (src : Nat) : List Byte := leBytes 4 (src + 256) ++ (List.range 15).flatMap (fun k => leBytes 4 (k + 1))
theorem witness_Monitors :
    [(5 : Word64), 6, 8, 9].all (fun n => meetsW (.perfCtr (fH 5 4 0 0)) (regs [(4, n)]) (fun t => t.w.rs 4 == n)) = true ∧
    [Instr.perfMrd (fH 5 0 6 2), .perfMclr (fH 0 0 0 3)].all (fun i => meetsW i id (fun t => !t.blk.launch.sys) && meets i (stand i id sysB id) (fun _ t => t.blk.launch.sys)) = true ∧
    (let i : Instr := .perfMcfg (fH 0 4 0 1)
     let go (b : Block → Block) (src : Nat) (p : View → Bool) := meets i (stand i (regs [(4, 0x100000)]) b (memAt 0x100000 (monRec src))) (fun s t => okE (s.walk 0 0x100000 [600]) && p t)
     meetsW i (regs [(4, 0x100001)]) (fun t => (t.w.rs 4).toNat % 64 != 0) && go id 1 (fun t => !t.blk.launch.sys) &&
       go sysB 1 (fun t => okRead (t.readVa 0x100000 64) (fun bs => (Monitor.ofRecord bs).isSome)) &&
       go sysB 8 (fun t => okRead (t.readVa 0x100000 64) (fun bs => (Monitor.ofRecord bs).isNone)) &&
       meets i (stand i (regs [(4, 2 ^ 45)]) sysB id) (fun s t => !okE (s.walk 0 (2 ^ 45) [600]) && faultRead (t.readVa (2 ^ 45) 64)) &&
       meets i (stand i (fun w => { regs [(4, 0x100000)] w with fence := some pend }) sysB id) (fun _ t => waitRead (t.readVa 0x100000 64))) = true ∧
    (let x : Monitor := { src := 1, en := true, edges := (List.range 15).map (fun k => BitVec.ofNat 32 (k + 1)), words := monitorWords, last := 0 }
     x.words.length = 19 ∧ x.edges.length = 15 ∧ ((withD (fun s => s.setMonitor 63 3 x)).monitor 63 3).en = true ∧ ((withD (fun s => s.setMonitor 63 3 x)).monitor 63 3).src ≠ 5 ∧
      (let s := withD (fun s => { s.setMonitor 39 3 { x with src := 5 } with clock := 1024 })
       (s.monitor 39 3).en = true ∧ 5 ≤ (s.monitor 39 3).src.toNat ∧ 1024 ≤ (s.clock - (s.monitor 39 3).last).toNat ∧ (s.clock - s.clock).toNat < 1024)) ∧
    (let s := withD (fun s => memAt 0x10000000000 (monRec 1) { s with host := { s.host with boot := 3, sem := List.replicate 8 1 } })
     s.host.boot = 3 ∧ s.host.sem.getD 6 0 = ownerOf .a ∧ hostRange ((0x10000000000 : Word64).extractLsb' 0 55).toNat 64 = true ∧ (Monitor.ofRecord (Cells.getMany s.mem 0x10000000000 64)).isSome = true) := by
  decide +kernel

/-- RecordsQueues: records of each code, malformed, not permitted, not resident, armed and enqueued; a ring with room and a full one. -/
def recAs (code jc nb flags : Nat) : List Byte := leBytes 8 0x20000 ++ leBytes 8 0 ++ leBytes 4 jc ++ leBytes 4 nb ++ leBytes 4 0 ++ leBytes 2 0 ++ leBytes 1 flags ++
  leBytes 9 0 ++ leBytes 16 0 ++ leBytes 4 1 ++ leBytes 4 code
def qcb (base logc head tail : Nat) : List Byte := leBytes 8 base ++ leBytes 8 logc ++ leBytes 4 head ++ leBytes 4 tail ++ leBytes 8 0
def recState (code jc nb flags logc tail : Nat) : State := withD (fun s => memAt 0x60000 (qcb 0x70000 logc 0 tail) (memAt 0x100000 (recAs code jc nb flags) s))
/-- A place at its home slice. -/
def atPa (pa : Nat) : DevPlace := { via := .plain, pa := pa }
theorem witness_Records :
    let placed (s : State) (k : AccKind) (va : Addr) (n pa : Nat) : Bool := s.devTranslate 0 false k va n == .ok (atPa pa)
    let full (s : State) : Bool := let q := s.readQcb (atPa 0x60000); q.ok && (q.tail + 2 ^ 32 - q.head) % 2 ^ 32 == 2 ^ q.logc
    (let s := recState 1 2 1 0 8 0
     s.readAt (atPa 0x100000) 60 1 = 1 ∧ s.readAt (atPa 0x100000) 16 4 = 2 ∧ s.home = [] ∧ MemoryWf s) ∧
    (Rec.ofBytes (recAs 0 0 1 0)).malformed = false ∧ (Rec.ofBytes (recAs 0 0 1 0x40)).malformed = true ∧
    (let s := recState 0 0 321 8 8 0
     s.residable (Rec.ofBytes (recAs 0 0 321 8)) = false ∧ s.residable (Rec.ofBytes (recAs 0 0 320 8)) = true) ∧
    (let s := recState 0 0 1 0 8 255
     placed s .rmw 0x100000 64 0x100000 && placed s .rmw (s.qcbVa 0 0) 32 0x60000 && !full s && (s.readQcb (atPa 0x60000)).ok &&
       placed s .write ((s.readQcb (atPa 0x60000)).entryVa 255 8) 8 0x707F8) = true ∧
    full (recState 0 0 1 0 8 256) = true ∧
    ((recState 0 0 1 0 7 0).readQcb (atPa 0x60000)).ok = false ∧
    (let s := withD (memAt 0x60000 (qcb (2 ^ 45) 8 0 0))
     match s.devTranslate 0 false .write ((s.readQcb (atPa 0x60000)).entryVa 0 8) 8 with | .error e => e.replayable && e.cls != 0 | _ => false) = true ∧
    [(2 ^ 45, true), (2 ^ 42 + 2 ^ 40, false)].all (fun x => let s := withD (memAt 24 (leBytes 8 x.1))
      match s.devTranslate 0 false .rmw (s.qcbVa 0 0) 32 with | .error e => e.cls != 0 && e.replayable == x.2 | .ok _ => false) = true ∧
    (let s := withD (memAt 0x60000 (qcb (2 ^ 42 + 2 ^ 40) 8 0 0))
     match s.devTranslate 0 false .write ((s.readQcb (atPa 0x60000)).entryVa 0 8) 8 with | .error e => !e.replayable && e.cls != 0 | _ => false) = true ∧
    (let s := recState 0 0 1 0 8 255
     (match s.tryQueue 0x100000 (atPa 0x100000) false 0 0 id with | .done _ => true | _ => false) &&
     (match (withD (memAt 24 (leBytes 8 (2 ^ 45)))).tryQueue 0x100000 (atPa 0x100000) false 0 0 id with | .waits _ _ => true | _ => false)) = true := by
  unfold MemoryWf
  decide +kernel
theorem witness_Queues :
    let at64 (w : Warp → Warp) (i : Instr) (p : View → Bool) : Bool := meetsW i (fun x => w (regs [(4, 0x100000)] x)) p
    let there (t : View) : Bool := t.recordAt 0x100000 == .ok (atPa 0x100000)
    [Instr.launch (fH 5 4 0 0), .spawn (fH 5 4 6 1), .join (fH 5 4 0 1)].all (fun i =>
      at64 id i (fun t => there t && free t && t.drained && !t.placeBusy (.phys 0x100000) 64 && t.w.wait.isNone) &&
      meetsW i (regs [(4, 0x100001)]) (fun t => (t.w.rs 4).toNat % 64 != 0) &&
      meetsW i (regs [(4, 2 ^ 45)]) (fun t => !okE (t.recordAt (2 ^ 45))) &&
      meetsW i (regs [(4, 0x100000), (6, 2)]) (fun t => (t.w.rs 6).toNat % 4 != 0) &&
      at64 (fun w => { w with buf := [storeTo (.phys 0x200000)] }) i (fun t => there t && !t.drained) &&
      at64 (fun w => { w with wait := some (.queue 0) }) i (fun t => there t && t.w.wait == some (.queue 0) && !t.dev.passed 0 225000) &&
      at64 (fun w => { w with fence := some pend }) i (fun t => there t && !t.mayEnter)) = true ∧
    (let waits (r : Armed) : Bool := match r with | .waits _ _ => true | .done _ _ => false
     let gone (i : Instr) (p : State → View → Bool) : Bool := meets i (stand i (regs [(4, 0x100000)]) id
         (fun s => memAt 24 (leBytes 8 (2 ^ 45)) (memAt 0x100000 (recAs 0 0 1 0) s))) p
     gone (.launch (fH 5 4 0 0)) (fun _ t => waits ((t.cached true 0x100000 (.phys 0x100000) 64).close.arm false (fun _ => true) 0x100000 (atPa 0x100000))) &&
     gone (.spawn (fH 5 4 6 0)) (fun _ t => waits ((t.cached true 0x100000 (.phys 0x100000) 64).close.writeArmed false 0x100000 (atPa 0x100000) 0
       (spawnBytes t.blk.launch 0x100000 0 0)))) = true ∧
    (let i : Instr := .qdepth (fH 5 4 0 0)
     let va (s : State) : Addr := s.qcbVa 0 0 + 16
     meets i (stand i id id (memAt 0x60000 (qcb 0x70000 8 0 7))) (fun s t => (va s).toNat % 8 == 0 && okRead (t.readVa (va s) 8) (fun _ => true)) &&
     meets i (stand i (fun w => { w with fence := some pend }) id id) (fun s t => (va s).toNat % 8 == 0 && waitRead (t.readVa (va s) 8)) &&
     meets i (stand i id id (memAt 24 (leBytes 8 0x60004))) (fun s _ => (va s).toNat % 8 != 0) &&
     meets i (stand i id id (memAt 24 (leBytes 8 (2 ^ 45)))) (fun s t => (va s).toNat % 8 == 0 && faultRead (t.readVa (va s) 8))) = true ∧
    meetsW (.park (fH 0 4 0 1)) (regs [(4, 0x100000)]) (fun t => there t && t.drained && t.w.life == .live && t.blk.stopReq.isNone) = true ∧
    at64 (fun w => { w with buf := [storeTo (.phys 0x200000)] }) (.park (fH 0 4 0 1)) (fun t => there t && !t.drained) = true ∧
    meetsW (.park (fH 0 4 0 1)) (regs [(4, 0x100001)]) (fun t => !okE (t.recordAt 0x100001)) = true := by decide +kernel
theorem witness_Exit :
    let i : Instr := .exit (fH 0 0 0 0)
    let ring (t : View) : List Split := replaceRunning t.w.ring [{ pc := t.nextHeader, mask := t.w.runMask &&& ~~~t.eff, st := .ready }]
    let part (w : Warp → Warp) (p : View → Bool) : Bool := meetsW i (fun x => w { x with clause := x.clause.map (fun c => { c with eff := 1 }) }) p
    let underWay (t : View) : Bool := !t.w.loads.isEmpty || !t.w.ops.isEmpty
    meetsW i id (fun t => ring t == [] && t.mayEnter && !underWay t && t.w.held.isEmpty && t.w.pushes.isEmpty && t.w.jobFault.isNone) = true ∧
    meetsW i (fun w => { w with fence := some pend }) (fun t => ring t == [] && !t.mayEnter) = true ∧
    meetsW i (fun w => { w with loads := [loadTo (.v 2 1) false], clause := w.clause.map (fun c => { c with word := 0xF1A00000 }) }) (fun t => ring t == [] && underWay t) = true ∧
    part id (fun t => t.w.ring.length == 1 && t.w.running.isSome && t.w.depth == 0 && t.w.runMask &&& ~~~t.eff != 0 && !(ring t).isEmpty &&
      (match t.putRing (ring t) with | .ok t1 => okE t1.leave.settle | _ => false)) = true ∧
    part (fun w => { w with ring := { pc := 0x20000, mask := 1, st := .running } :: six.map (fun sp => { sp with mask := sp.mask <<< 1, st := .ready }) })
      (fun t => !(ring t).isEmpty && !okE (t.putRing (ring t))) = true ∧
    part (fun w => { w with depth := 1, hw := [{ addr := 2, mask := 0xFFFFFFFE }], ring := [{ pc := 0x20000, mask := 1, st := .running }, { pc := 0x20000, mask := 0xFFFFFFFE, st := .held .ret }] })
      (fun t => (match t.putRing (ring t) with | .ok t1 => !okE t1.leave.settle | _ => false)) = true := by decide +kernel

/-- TablesInvalidations: entries that are taken, locked, malformed, past the table; rule tables; TLBINV of the own context and another's. -/
theorem witness_Tables :
    (let i : Instr := .objsetClr (fH 0 4 0 1)
     meetsW i (regs [(4, 4096)]) (fun t => decide (4096 ≤ (t.w.rs 4).toNat)) &&
       meets i (stand i (regs [(4, 4095)]) id id) (fun s t => match s.objAt 0 4095 [800] with
         | .ok lf => !t.placeBusy (s.placeAt lf) 32 && okE (s.readLoc 0 0 (s.placeAt lf) 32) && (s.placeAt lf).pa?.isSome && Memory.wf s.mem && s.home.isEmpty
         | .error _ => false) &&
       meets i (stand i (fun w => { regs [(4, 4095)] w with fence := some pend }) id id) (fun s t => match s.objAt 0 4095 [800] with
         | .ok lf => t.placeBusy (s.placeAt lf) 32
         | .error _ => false) &&
       meets i (stand i (regs [(4, 4095)]) id (memAt 16 (leBytes 8 (2 ^ 45)))) (fun s _ => !okE (s.objAt 0 4095 [800]))) = true ∧
    (let i : Instr := .objset (fH 0 4 5 0)
     let go (space rights : Nat) (p : List Byte → Bool) := meets i (stand i (regs [(4, 5), (5, 0x100000)]) id (memAt 0x100000 (objBytes 0 64 space rights))) (fun _ t =>
       okRead (t.readVa 0x100000 32) p)
     let e (bs : List Byte) : ObjEntry := objEntry (BitVec.ofNat 64 (leNat (bs.take 8))) (BitVec.ofNat 64 (leNat ((bs.drop 8).take 8))) (BitVec.ofNat 64 (leNat ((bs.drop 16).take 8))) 0
     go 0 3 (fun bs => (e bs).ok && !(e bs).lk) && go 0 11 (fun bs => (e bs).ok && (e bs).lk) && go 7 3 (fun bs => (e bs).v && !(e bs).ok) &&
       meetsW i (regs [(4, 4096)]) (fun t => t.w.rs 4 == 4096) && meetsW i (regs [(4, 5), (5, 16)]) (fun t => (t.w.rs 5).toNat % 32 != 0) &&
       meetsW i (regs [(4, 5), (5, 2 ^ 45)]) (fun t => faultRead (t.readVa (2 ^ 45) 32)) &&
       meetsW i (fun w => { regs [(4, 5), (5, 0x100000)] w with fence := some pend }) (fun t => waitRead (t.readVa 0x100000 32))) = true ∧
    (let i : Instr := .objget (fH 5 4 0 3)
     meetsW i (regs [(4, 4096)]) (fun t => t.w.rs 4 == 4096) &&
       meets i (stand i (regs [(4, 4095)]) id id) (fun s _ => match s.objAt 0 4095 [800] with | .ok lf => !pteD lf.pte | .error _ => false) &&
       meets i (stand i (regs [(4, 5)]) (fun b => { b with commit := some closing }) (memAt 16 (leBytes 8 (2 ^ 43)))) (fun s _ => match s.objAt 0 5 [800] with
         | .ok lf => pteD lf.pte
         | .error _ => false) &&
       meets i (stand i (regs [(4, 5)]) id (memAt 16 (leBytes 8 (2 ^ 45)))) (fun s _ => !okE (s.objAt 0 5 [800]))) = true := by decide +kernel
theorem witness_Rules :
    let i (n : BitVec 9) : Instr := .rwload (fH 0 4 0 n)
    meetsW (i 0) id (fun t => okRead (t.readRules 0 0) (fun bs => bs.isEmpty) && t.w.wait.isNone && t.w.plan.isEmpty) = true ∧
    meetsW (i 1) (regs [(4, 0x100000)]) (fun t => okRead (t.readRules 0x100000 1) (fun bs => !entryMalformed bs) && t.w.plan.isEmpty) = true ∧
    meets (i 1) (stand (i 1) (regs [(4, 0x100000)]) id (memAt 0x100000 (List.replicate 64 0xFF))) (fun _ t => okRead (t.readRules 0x100000 1) entryMalformed) = true ∧
    meetsW (i 1) (regs [(4, 0x100020)]) (fun t => (t.w.rs 4).toNat % 64 != 0) = true ∧
    meetsW (i 1) (regs [(4, 2 ^ 45)]) (fun t => faultRead (t.readRules (2 ^ 45) 1)) = true ∧
    meetsW (i 1) (fun w => { regs [(4, 0x100000)] w with fence := some pend }) (fun t => waitRead (t.readRules 0x100000 1)) = true ∧
    (let s := stand (i 1) (regs [(4, 0x100000)]) (fun b => { b with warps := b.warps ++ b.warps.map (fun w => { w with num := 1, plan := [.pass] }) }) id
     meets (i 1) s (fun _ t => (t.blk.setWarp t.w).warps.any (fun w => !w.plan.isEmpty) && okRead (t.readRules 0x100000 1) (fun bs => !entryMalformed bs))) = true ∧
    meetsW (i 1) (fun w => { w with wait := some (.rules []) }) (fun t => t.w.wait == some (.rules []) && t.w.plan.isEmpty) = true := by decide +kernel
theorem witness_Invalidations :
    [Instr.tlbinvVa (fH 0 4 5 0), .tlbinvAll (fH 0 0 0 1), .tlbinvObj (fH 0 4 5 2)].all (fun i =>
      meetsW i (regs [(4, 4095), (5, 1)]) (fun t => !t.close.accessesOf 0 0 0) && meetsW i (fun w => { w with buf := [.fence] }) (fun t => t.close.accessesOf 0 0 0)) = true ∧
    meetsW (.tlbinvObj (fH 0 4 5 2)) (regs [(4, 4095), (5, 2)]) (fun t => decide (4096 < (t.w.rs 4).toNat + (t.w.rs 5).toNat)) = true ∧
    meetsW (.tlbinvAll (fH 6 0 0 5)) id (fun t => !t.blk.launch.sys) = true ∧
    (let i : Instr := .tlbinvAll (fH 6 0 0 5); meets i (stand i id sysB id) (fun _ t => t.blk.launch.sys)) = true := by decide +kernel

/-! ### Control registers and the fabric -/

/-- ControlRegisters: each register read and written, by a SYS launch where it must be, refused where it is read only or not theirs; the
bank modes while a change of the warp itself is under way, and vch.mode unchanged, changed and under a change. -/
theorem witness_ControlRegisters :
    let csr (n : BitVec 9) : Instr := .csr (fH 6 4 5 n)
    let sys (n : BitVec 9) (a b : Word64) (d : State → State) (p : View → Bool) : Bool := meets (csr n) (stand (csr n) (regs [(4, a), (5, b)]) sysB d) (fun _ t => p t)
    let warps2 (b : Block) : Block := { b with warps := b.warps ++ b.warps.map (fun w => { w with num := 1, plan := [.pass] }) }
    [(0 : BitVec 9), 1, 2].all (fun n => meetsW (csr n) (regs [(4, 1), (5, 3)]) (fun t => t.w.rs 5 != 0 && t.w.plan.isEmpty && t.blk.rwLast.isNone)) = true ∧
    meets (csr 2) (stand (csr 2) (regs [(4, 1), (5, 3)]) (fun b => { b with rwLast := some (0, 1) }) id) (fun _ t => t.blk.rwLast == some (t.dev.clock, 1) && decide (t.w.num < 1)) = true ∧
    meets (csr 2) (stand (csr 2) (regs [(4, 1), (5, 3)]) warps2 id) (fun _ t => (t.blk.setWarp t.w).warps.any (fun w => !w.plan.isEmpty)) = true ∧
    [(0 : BitVec 9), 1, 2, 3, 4, 5].all (fun n => meetsW (csr n) id (fun t => t.w.rs 5 == 0 && t.blk.bankChanges.isEmpty)) = true ∧
    [(3 : BitVec 9), 4].all (fun n => meets (csr n) (stand (csr n) (fun w => { w with clause := w.clause.map (fun c => { c with word := 0xF1C00000 }) })
      (fun b => { b with bankChanges := [{ warp := 0, seq := 0, banks := 1, mode := 0 }] }) id) (fun _ t => t.w.rs 5 == 0 && t.blk.bankChanges.map BankChange.warp == [t.w.num])) = true ∧
    [(3 : BitVec 9), 4, 5].all (fun n => meetsW (csr n) (regs [(5, 1)]) (fun t => t.w.rs 5 != 0)) = true ∧
    runs (csr 0x100) = true ∧
    [(0x100 : BitVec 9), 0x107, 0x108, 0x10F].all (fun n => sys n 1 1 id (fun t => t.blk.launch.sys && t.dev.vchChange.isEmpty)) = true ∧
    sys 0x107 0 1 id (fun t => t.csrRead 0x107 == 0 && t.dev.vchMode.length == 8) = true ∧
    sys 0x107 1 1 (fun s => { s with vchChange := [(7, 1)] }) (fun t => t.dev.vchChange.any (fun c => c.1 == 7)) = true ∧
    (withD (fun s => { s with vchChange := [(7, 1)] })).vchChange.any (fun c => c.1 == 7) = true := by decide +kernel

def entry0 (epoch : BitVec 16) (exp : Nat) (hold : Bool) : GroupEntry :=
  { grp := 0, ctx := 0, members := 3, dests := 1, exp := exp, op := 2, hold := hold, epoch := epoch, tmo := 1, wch := 4, win := 0x100000, stat := 0x110000, key := 9,
    retired := [] }
def group (d : State → State) (s : State) : State := d { s with groups := [entry0 5 1 false] }

/-- Fabric: every form accepted, an object of another space, a group that the context does not own, a store before a release, a region
entry that must wait, an own store to the same place, and a deferred page during a commit. -/
theorem witness_FabricIssue :
    let f : FormE := fE 4 8 8 0 0 4 0 10 0
    let lanesOf (t : View) (g : FormE) (k : AccKind) (red : Bool) (p : List FabLane → Bool) : Bool := match t.fabricLanes g k red 4 (t.offsE g) with
      | .ok ls => p ls
      | .error _ => false
    let behind (w : Warp) : Warp := { w with buf := [.store (storeAt (.phys 0))] }
    let fenced (w : Warp) : Warp := { w with fence := some pend }
    let push (g : FormE) (w : Warp → Warp) (d : State → State) (p : View → Bool) : Bool := meets (.collpush g) (stand (.collpush g) w id d) (fun _ t => p t)
    push f id (group id) (fun t => lanesOf t f .write true (fun ls => okE (t.groupsOwned ls)) && free t) = true ∧
    push f id id (fun t => lanesOf t f .write true (fun ls => !okE (t.groupsOwned ls))) = true ∧
    push { f with ord := 2 } behind (group id) (fun t => lanesOf t f .write true (fun ls => okE (t.groupsOwned ls)) && !t.drained) = true ∧
    push f fenced (group id) (fun t => lanesOf t f .write true (fun ls => okE (t.groupsOwned ls)) && !t.mayEnter) = true ∧
    push (fE 4 8 5 0 0 4 0 10 0) id id (fun t => !okE (t.fabricLanes (fE 4 8 5 0 0 4 0 10 0) .write true 4 (t.offsE (fE 4 8 5 0 0 4 0 10 0)))) = true ∧
    push { f with sub := 1, typ := 0 } id (group id) (fun t => match t.fabricLanes { f with sub := 1, typ := 0 } .write true 256 ((t.offsE f).take 1) with
      | .ok ls => okE (t.groupsOwned ls)
      | .error _ => false) = true ∧
    (let g : FormE := fE 4 8 7 0 0 0 0 11 0
     let st (h : FormE) (w : Warp → Warp) (p : View → Bool) : Bool := meets (.netst h) (stand (.netst h) w id id) (fun _ t => p t)
     let ld (h : FormE) (w : Warp → Warp) (p : View → Bool) : Bool := meets (.netld h) (stand (.netld h) w id id) (fun _ t => p t)
     let sc : FormE := { g with ord := 4, sco := 4 }
     st g id (fun t => lanesOf t g .write false (fun ls => !t.fabBusy ls 4) && free t) && st sc behind (fun t => wideScope sc.sco && !t.drained) &&
       st g (fun w => { w with buf := [.store (storeAt (.mem { Via.plain with loop := true } 0))] }) (fun t => lanesOf t g .write false (fun ls => t.fabBusy ls 4)) &&
       st (fE 4 8 5 0 0 0 0 11 0) id (fun t => !okE (t.fabricLanes (fE 4 8 5 0 0 0 0 11 0) .write false 4 (t.offsE g))) &&
       ld g id (fun t => lanesOf t g .read false (fun ls => !t.fabBusy ls 4)) && ld sc behind (fun t => wideScope sc.sco && !t.drained) &&
       meets (.netld g) (stand (.netld g) id (fun b => { b with commit := some closing }) (memAt 0x10008 (leBytes 8 (2 ^ 47 + 0x117))))
         (fun _ t => lanesOf t g .read false (fun ls => t.blk.commit.isSome && ls.any FabLane.dfr)) &&
       ld (fE 4 8 5 0 0 0 0 11 0) id (fun t => !okE (t.fabricLanes (fE 4 8 5 0 0 0 0 11 0) .read false 4 (t.offsE g)))) = true ∧
    (let g : FormE := fE 4 8 8 0 0 4 0 11 0
     let pl (w : Warp → Warp) (d : State → State) (p : View → Bool) : Bool := meets (.collpull g) (stand (.collpull g) w id d) (fun _ t => p t)
     pl id (group id) (fun t => lanesOf t g .read true (fun ls => okE (t.groupsOwned ls)) && t.w.fence.isNone) &&
       pl fenced (group id) (fun t => lanesOf t g .read true (fun ls => okE (t.groupsOwned ls)) && t.w.fence.isSome) &&
       meets (.collpull { g with sub := 1 }) (stand (.collpull { g with sub := 1 }) id id (group id)) (fun _ t => lanesOf t g .read true (fun ls => okE (t.groupsOwned ls)) && t.w.fence.isNone) &&
       pl id id (fun t => lanesOf t g .read true (fun ls => !okE (t.groupsOwned ls)))) = true := by decide +kernel

def request (kind : ReqKind) (since : Word64) : FabricReq := { ident := 3, core := 0, warp := 0, saved := none, home := 1, kind := kind, drain := none, since := since, begun := false, src := none }
def groupRec (exp : Nat) : List Byte := leBytes 8 3 ++ leBytes 8 1 ++ leBytes 2 exp ++ leBytes 2 2 ++ leBytes 4 0 ++ leBytes 4 0 ++ leBytes 4 1024 ++ leBytes 8 0x100000 ++ leBytes 8 0x110000 ++ leBytes 16 0
theorem witness_FabricControl :
    (let i : Instr := .collwait (fH 5 0 0 0)
     runs i && meets i (stand i id id (fun s => { s with requests := [request .push 0] })) (fun s t => s.requests.any (fun r => r.isOf t.core t.w.num && r.kind.counted)) &&
       meetsW i (fun w => { w with pushes := [aDrain 1] }) (fun t => t.w.pushes.any (fun p => p.drain.isSome))) = true ∧
    (let i : Instr := .collwaitStat (fH 5 4 6 1)
     meetsW i (regs [(4, 0x100008)]) (fun t => (t.w.rs 4).toNat % 16 != 0) &&
       [leBytes 8 (1 + 2 ^ 32 * 7), leBytes 8 (1 + 2 ^ 32 * 8), leBytes 8 0].all (fun x => meets i (stand i (regs [(4, 0x100000), (6, 7)]) id (memAt 0x100008 x)) (fun _ t => okRead (t.readVa 0x100000 16) (fun bs => bs.drop 8 == x))) &&
       meetsW i (regs [(4, 2 ^ 45)]) (fun t => faultRead (t.readVa (2 ^ 45) 16)) &&
       meetsW i (fun w => { regs [(4, 0x100000)] w with fence := some pend }) (fun t => waitRead (t.readVa 0x100000 16))) = true ∧
    (let i : Instr := .collgrp (fH 0 4 0 0)
     let go (exp : Nat) (p : State → List Byte → Bool) (d : State → State) := meets i (stand i (regs [(4, 0x100000)]) id (fun s => d (memAt 0x100000 (groupRec exp) s))) (fun s t => okRead (t.readVa 0x100000 64) (p s))
     meetsW i (regs [(4, 0x100020)]) (fun t => (t.w.rs 4).toNat % 64 != 0) && go 4097 (fun _ bs => (GroupEntry.ofRecord 0 0 bs).isNone) id &&
       go 4096 (fun s bs => (GroupEntry.ofRecord 0 0 bs).isSome && !s.groupForeign 0 0) id &&
       go 1 (fun s bs => (GroupEntry.ofRecord 0 0 bs).isSome && s.groupForeign 0 0) (fun s => { s with groups := [{ entry0 5 1 false with ctx := 1 }] })) = true ∧
    meets (.collgrpClr (fH 0 0 0 0x100)) (stand (.collgrpClr (fH 0 0 0 0x100)) id id (fun s => { s with groups := [{ entry0 5 1 false with ctx := 1 }] })) (fun s _ => s.groupForeign 0 0) = true ∧
    runs (.collgrpClr (fH 0 0 0 0x100)) = true ∧
    (let s := withD (group id)
     s.homeEntry 0 = some (entry0 5 1 false) ∧ (entry0 5 2 false).retired = [] ∧ s.heldContribs = [] ∧ s.homeEntry 1 = none) := by decide +kernel

/-- ReductionSlots: contributions that are refused, late, held, the last of their slot and not the last; the events of slots, deliveries and
pulls at their bounds. -/
def contrib (epoch : BitVec 16) (key : Word64) : Contribution :=
  { sender := 1, ident := 3, grp := 0, epoch := epoch, key := key, typ := 10, chunk := 3, topk := false, words := [(511, 7)] }
def slot0 (delivered hold : Bool) : Slot := { Slot.open (entry0 5 2 hold) 5 3 0 with delivered := delivered }
theorem witness_Slots :
    (let s := withD (group (fun s => { s with contributions := [contrib 5 9, contrib 5 9] }))
     s.contributions == [contrib 5 9, contrib 5 9] ∧ s.pullBefore (contrib 5 9) = false ∧ s.homeEntry 0 = some (entry0 5 1 false) ∧ s.slotAt 0 5 3 = none ∧ s.slots.length < 8192 ∧
       collType 2 = (contrib 5 9).typ ∧ (entry0 5 1 false).members.getLsbD (contrib 5 9).sender.toNat = true ∧ (contrib 5 8).key ≠ (entry0 5 1 false).key ∧
       (contrib 4 9).epoch < (entry0 5 1 false).epoch ∧ (entry0 5 1 false).epoch < (contrib 6 9).epoch ∧ (slot0 false false).entry.hold = false ∧
       (slot0 false false).entry.dests.getLsbD s.deviceNo.toNat = true ∧ (withD id).homeEntry 0 = none ∧ (contrib 5 9).sender ≠ s.deviceNo ∧
       (slot0 false true).entry.dests &&& ~~~(slot0 false true).fins ≠ 0) ∧
    (let s := withD (group (fun s => { s with clock := 2250, slots := [slot0 true true, slot0 false true], heldContribs := [(contrib 6 9, 0)] }))
     s.slots == [slot0 true true, slot0 false true] ∧ (slot0 true true).since.toNat + (slot0 true true).entry.tmo.toNat * 2250 ≤ s.clock.toNat ∧
       (slot0 false true).overdue s = false ∧ (slot0 false true).overdue { s with clock := 2251 } = true ∧
       (slot0 false true).since.toNat + ((slot0 false true).entry.tmo.toNat * 2250 + 1) ≤ (2251 : Word64).toNat ∧
       (0 : Word64).toNat + (entry0 5 1 false).tmo.toNat * 2250 ≤ s.clock.toNat) := by decide +kernel
def deliv (words : List (Nat × Word32)) : Delivery := { grp := 0, key := 9, epoch := 5, chunk := 3, words := words, mask := 1, info := 1 }
def pull (epoch : BitVec 16) : PullRequest := { sender := 1, ident := 3, grp := 0, epoch := epoch, lanes := [(0, 3 * 2048 + 2044)], fin := false }
theorem witness_HomeEvents :
    (let s := withD (group (fun s => { s with deliveries := [deliv [(511, 7)], deliv []], pullReqs := [pull 5, { pull 5 with fin := true }, pull 4], slots := [slot0 false true] }))
     let stat : Addr := 0x110000 + BitVec.ofNat 64 (16 * 3)
     s.mayTry (.delivery stat) = true ∧ s.home = [] ∧ okE ((s.trying (.delivery stat)).devTranslate 0 false .write (0x100000 + BitVec.ofNat 64 (2048 * 3 + 4 * 511)) 4) = true ∧
       okE ((s.trying (.delivery stat)).devTranslate 0 false .write stat 16) = true ∧
       ({ s with devEvents := [(.party 0 (.delivery stat), s.clock)] } : State).mayTry (.delivery stat) = false ∧
       s.beforePull 0 (pull 5) = false ∧ s.beforePull 1 { pull 5 with fin := true } = true ∧
       (s.slotAt 0 5 3).isSome = true ∧ (slot0 false true).overdue s = false ∧ s.slotAt 0 4 3 = none ∧ (pull 4).epoch < (entry0 5 1 false).epoch ∧ s.slotAt 0 6 3 = none ∧ (entry0 5 1 false).epoch < (pull 6).epoch ∧ 3 < (entry0 5 1 false).wch ∧ (511 : Nat) < 512 ∧
       (pull 5).sender ≠ s.deviceNo ∧ Memory.wf s.mem = true) := by decide +kernel

/-- FabricAnswers: store packets with and without stores, to DRAM and elsewhere, a load, and requests that are answered or given up. -/
def netSt (xs : List (Nat × List Byte)) : NetStore := { sender := 1, ident := 3, stores := xs, deferred := [] }
theorem witness_FabricArrivals :
    let s := withD (fun s => { s with netStores := [netSt [(0x100000, [1])], netSt [(0x100008, [2])], netSt []], netLoads := [{ sender := 1, ident := 2, lanes := [(0, 0x200000)], size := 16, deferred := [0x20] }] })
    s.bad = [] ∧ s.home = [] ∧ Memory.wf s.mem = true ∧ (2 : Nat) < 3 ∧ s.rangeHeld 0x200000 16 = false ∧ s.badMem 0x200000 16 = false ∧ physRegion 0x100000 = .dram ∧ physRegion 0x7F80000000 ≠ .dram ∧ s.rangeHeld 0x100000 1 = false ∧
      (netSt [(0x100000, [1])]).sender ≠ s.deviceNo ∧ 0x200000 / 2048 ≠ 0x100000 / 2048 ∧ 0x100008 / 2048 = 0x100000 / 2048 ∧
      ({ s with vchChange := [(0, 1)] } : State).rangeHeld 0x100000 1 = true := by decide +kernel
theorem witness_FabricAnswers :
    (let s := withD (fun s => { s with clock := 4500000, requests := [request .push 0, { request (.store false) 0 with ident := 4 }, { request (.netld 0) 0 with ident := 5 }],
                                       responses := [{ dest := 0, ident := 3, answer := .accepted }, { dest := 0, ident := 9, answer := .accepted }] })
     [ReqKind.netld 0, .load 0, .atomic 0, .pull 0 1].all (fun k => let r := request k 0
       r.saved.isNone && !r.begun && decide (r.since.toNat + 2000 * 2250 ≤ s.clock.toNat)) = true ∧
     (request .push 0).src = none ∧ ({ request .push 0 with src := some (2, 0) } : FabricReq).src = some (2, 0) ∧
     s.bad = [] ∧ has s (fun _ _ => true) = true ∧ (request .push 0).home ≠ s.deviceNo ∧ (request .push 0).begun = false ∧
       (request .push 0).since.toNat + 2000 * 2250 ≤ s.clock.toNat ∧ s.requests.find? (fun y => y.ident == 3) = some (request .push 0) ∧
       s.requests.find? (fun y => y.ident == 9) = none ∧ (s.takeAnswer (request .push 0) .accepted).isSome = true) ∧
    (let o : Op := { seq := 0, pc := 0x20004, instr := .netld (fE 4 8 7 0 0 0 0 11 0), since := 0, body := .fabric false 4 1 [{ lane := 3, va := none, loc := .got 7 }] false }
     has (withW (fun w => { w with ops := [o] })) (fun _ w => w.ops == [o])) = true ∧
    (let p : LanePlace := { lane := 3, va := none, loc := .lost }
     p.pending = false ∧ laneFault 0x20004 0 [p] = some { flt 0x0E 0x03 with addr := some 0x20004, lane := some 3 }) ∧
    ((withD id).viewOf 0 0).isSome = true := by decide +kernel

/-! ### Events of warps, the host, the device -/

/-- Warp 0 of core 0 in view, with the clock at `c`. -/
def viewed (w : Warp → Warp) (b : Block → Block) (c : Word64) (p : State → View → Bool) : Bool :=
  let s := stand nop w b (fun s => { s with clock := c })
  match s.viewOf 0 0 with
  | some t => p s t
  | none => false
def since (n : Nat) (c : Word64) : Pend := { num := n, since := c, marks := [] }
def pair (active : List Nat) (pending : List Pend) : Quad := { active := active, pending := pending, last := none }
def quad (q : Quad) (b : Block) : Block := { b with quads := [q], warps := b.warps ++ b.warps.map (fun w => { w with num := 1, waiting := none, outst := none }) }

/-- Selection: the first of two ready warps; the later one, where only it is late or the first yields; none where both rest. -/
theorem witness_Selection :
    let sel (w : Warp → Warp) (c : Word64) (q : Quad) (n : Option Nat) : Bool := viewed w (quad q) c (fun s t => s.selected t.blk q == n)
    let first (f : Warp → Warp) (c : Word64) : Bool :=
      viewed id (fun b => { quad (pair [0, 1] []) b with warps := (quad (pair [0, 1] []) b).warps.map (fun w => if w.num == 0 then f w else w) }) c
        (fun s t => s.selected t.blk (pair [0, 1] []) == some 1)
    sel id 0 (pair [0, 1] []) (some 0) = true ∧ sel (fun w => { w with yielded := true }) 0 (pair [0, 1] []) (some 0) = true ∧
    first (fun w => { w with lastIssue := 10 }) 16 = true ∧ first (fun w => { w with yielded := true }) 0 = true ∧
    sel id 7 { pair [0, 1] [] with last := some (0, 0, 1) } none = true ∧ sel id 8 { pair [0, 1] [] with last := some (0, 0, 1) } (some 0) = true := by decide +kernel

/-- Exchanges: each wait at its bound and below it; an exchange 8 and 7 cycles after the last. -/
theorem witness_Exchanges :
    let stalls (w : Warp → Warp) (c : Word64) : Bool := viewed w id c (fun _ t => t.w.life == .live && t.stallFor.isSome)
    let waits (w : Warp → Warp) (c : Word64) : Bool := viewed w id c (fun _ t => t.w.life == .live && t.stallFor.isNone)
    let wait (o : Outst) (w : Warp) : Warp := { w with outst := some o }
    let bar : Outst := .barwait 0 1 false 0 0 false 0 0 0
    let long (w : Warp) : Warp := { w with waiting := some (0, .long 200) }
    stalls (fun w => { w with faultWait := true }) 0 = true ∧ stalls (wait (.commit 1 0)) 0 = true ∧
    stalls (wait bar) 201 = true ∧ waits (wait bar) 200 = true ∧
    stalls (wait (.sleep 0 256)) 1 = true ∧ waits (wait (.sleep 0 192)) 1 = true ∧ stalls long 200 = true ∧ waits long 199 = true ∧ waits id 0 = true ∧
    (0 : Nat) ∉ ([] : List Nat) ∧ 8 ≤ ((8 : Word64) - 0).toNat ∧ ¬ 8 ≤ ((7 : Word64) - 0).toNat ∧
    viewed id (quad (pair [0] [since 1 0])) 8 (fun _ t => t.blk.quads == [pair [0] [since 1 0]]) = true := by decide +kernel

/-- WarpEventsAct: each event at its condition, the timers at their bounds. -/
theorem witness_WarpEvents :
    viewed id id 0 (fun s t => !t.blk.staggered && t.w.waiting.isNone && (t.blk.quadOf 0).any (fun q => s.selected t.blk q == some 0)) = true ∧
    viewed id (quad (pair [1, 0] [])) 0 (fun s t => (t.blk.quadOf 0).any (fun q => s.selected t.blk q == some 1)) = true ∧
    viewed (fun w => { w with waiting := some (0, .short) }) id 0 (fun _ t => !t.blk.staggered && t.w.tries && t.w.waiting.isSome) = true ∧
    viewed id (fun b => { b with staggered := true }) 0 (fun _ t => t.blk.staggered) = true ∧
    viewed (fun w => { w with outst := some (.sleep 0 64) }) id 64 (fun s t => t.w.outst == some (.sleep 0 64) && decide (64 ≤ s.clock.toNat)) = true ∧
    viewed (fun w => { w with outst := some (.commit 1 0) }) (quad (pair [0] [since 1 0])) 0
      (fun _ t => t.stallFor.isSome && t.blk.quadOf 0 == some (pair [0] [since 1 0]) && t.blk.readyPend (pair [0] [since 1 0]) == some 1) = true ∧
    viewed id (quad (pair [1] [since 0 0])) 2048 (fun s t => t.blk.readyWarp 0 &&
      t.blk.quads.find? (fun q => q.pending.any (fun p => p.num == 0 && decide (2048 ≤ (s.clock - p.since).toNat))) == some (pair [1] [since 0 0])) = true ∧
    viewed id (fun b => { b with stagger := 256 }) 64 (fun s t => (s.grids.find? t.blk.launch.ofGrid).isNone) = true ∧
    (let due (t : View) : Bool := t.w.life == .live && t.w.stop == .asked && t.w.dead.isNone && decide (t.w.askedAt.toNat + 10 * 2250 ≤ t.dev.clock.toNat)
     viewed (fun w => { w with stop := .asked }) id 22500 (fun _ t => due t && !t.reaches && !t.w.faultWait) = true ∧
       viewed (fun w => { w with stop := .asked, faultWait := true }) id 22500 (fun _ t => due t && !t.reaches && t.w.faultWait) = true ∧
       viewed (fun w => { w with stop := .asked }) id 22499 (fun s t => decide (t.w.askedAt.toNat ≤ s.clock.toNat) && decide (s.clock.toNat < t.w.askedAt.toNat + 10 * 2250)) = true ∧
       (match (stand (.region (fH 0 0 0 0)) (fun w => { w with stop := .asked }) id (fun s => { s with clock := 22500 })).viewOf 0 0 with
        | some t => due t && t.reaches
        | none => false) = true) ∧
    viewed (fun w => { w with faultWait := true }) id 225000 (fun s t => s.devEvents.isEmpty && decide (t.w.faultSince.toNat + 100 * 2250 ≤ s.clock.toNat)) = true ∧
    viewed id (fun b => { b with jobs := [{ jobOf false [] 16 0 0 with state := .suspended }] }) 225000
      (fun s t => t.blk.jobs == [{ jobOf false [] 16 0 0 with state := .suspended }] && decide (100 * 2250 ≤ s.clock.toNat)) = true := by decide +kernel
/-- The same for fences, met, not met and with a conflict, and for the match of a window. -/
theorem witness_FenceWindowEvents :
    viewed (fun w => { w with fence := some aFence, buf := [.fence] }) id 0 (fun s t => t.w.fence == some aFence && !aFence.hit && s.fenceMet 0 t.w aFence.seq aFence.order) = true ∧
    viewed (fun w => { w with fence := some { aFence with seq := 1 }, loads := [loadTo (.s 1) false] }) id 0
      (fun s t => t.w.fence == some { aFence with seq := 1 } && !s.fenceMet 0 t.w 1 aFence.order) = true ∧
    viewed (fun w => { w with fence := some { aFence with hit := true } }) id 0 (fun _ t => t.w.life == .live && t.w.fence.isSome) = true ∧
    viewed (fun w => { w with fence := some { aFence with seq := 1, prior := [(0, 1)] }, buf := [.fence, .fence] }) id 0 (fun s t => s.fenceMet 0 t.w 0 1) = true ∧
    viewed (fun w => { w with fence := some { aFence with seq := 2, prior := [(1, 1)] }, loads := [loadTo (.s 1) false] }) id 0 (fun s t => !s.fenceMet 0 t.w 1 1) = true ∧
    (let f : FormF := fF 1 2 2 0
     let s := stand (.tadd f) (fun w => { w with clause := w.clause.map (fun c => { c with word := 0xF0600000 }) })
       (fun b => { tiles b with rwperm := 1, rules := [(3, 1)] }) id
     match s.viewOf 0 0 with
     | some t => t.w.tries && t.w.plan.isEmpty && t.eff != 0 && !t.cl.todo.isEmpty && t.inWindow t.decoded
     | none => false) = true := by decide +kernel
/-- RollbackRestores: a warp without a pending fence whose checkpoint retains handle 3. -/
theorem witness_Rollback :
    viewed (fun w => { w with ckpt := { w.ckpt with handles := [(3, HandleEntry.zero)] } }) id 0 (fun _ t => t.w.fence.isNone &&
      t.w.ckpt.handles == [(3, HandleEntry.zero)] && t.blk.handles.length == 32) = true ∧ ([3].Nodup ∧ 3 < 32) := by decide +kernel

/-- HostInterface: the firmware runs, a port holds every semaphore, none of them, or the other does. -/
def hosted (own : BitVec 2) (d : State → State) : State := withD (fun s => d { s with host := { s.host with boot := 3, sem := List.replicate 8 own } })
theorem witness_Host :
    (hosted 0 id).host.boot = 3 ∧ (hosted 0 id).host.sem.getD 7 0 = 0 ∧ (hosted 1 id).host.sem.getD 7 0 = ownerOf .a ∧ (hosted 2 id).host.sem.getD 7 0 = ownerOf .b ∧
    (hosted 0 id).host.sem.getD 0 0 ≠ ownerOf .a ∧ (withD id).host.boot ≠ 3 ∧
    (let s := hosted 1 (memAt 0x60000 (qcb 0x70000 8 0 255))
     s.host.qstat.getLsbD 8 = false ∧ okE (s.devTranslate 0 false .rmw (s.qcbVa 0 7)) = true ∧ okE (s.devTranslate 0 false .rmw (s.qcbVa 0 0)) = true ∧ (s.readQcb (atPa 0x60000)).ok = true ∧
       ((s.readQcb (atPa 0x60000)).tail + 2 ^ 32 - (s.readQcb (atPa 0x60000)).head) % 2 ^ 32 ≠ 2 ^ (s.readQcb (atPa 0x60000)).logc ∧ s.home = [] ∧
       s.vchChange = [] ∧ s.service.out = [] ∧ MemoryWf s) ∧
    (let q := (hosted 1 (memAt 0x60000 (qcb 0x70000 8 0 256))).readQcb (atPa 0x60000)
     (q.tail + 2 ^ 32 - q.head) % 2 ^ 32 = 2 ^ q.logc) ∧
    8 ≤ ((0x200 : Word64).extractLsb' 6 4).toNat ∧ (hosted 1 (fun s => { s with host := { s.host with qstat := 256 } })).host.qstat.getLsbD 8 = true ∧
    (let s := hosted 1 (fun s => { s with service := { s.service with out := [39], substituted := [(80, 3)] } })
     319 / 8 ∈ s.service.out ∧ ∀ x ∈ s.service.substituted, x.2 = 3 → x.1 / 80 = 319 / 80 → x.1 = 319) ∧
    (let v : Word64 := 0x10000000040
     v.getLsbD 6 = true ∧ hostRange (v.extractLsb' 0 55).toNat 32 = true ∧ hostRange (4096 * ((v.extractLsb' 0 55).toNat / 4096 + 1)) 8192 = true) := by
  unfold MemoryWf
  decide +kernel

/-- A semaphore that port B has acquired in this cycle, and in an earlier one. -/
theorem witness_HostSemaphores :
    let atB (c : Word64) : State := hosted 2 (fun s => { s with clock := 7, host := { s.host with semB := [(7, c)] } })
    (atB 7).undecided 7 = true ∧ (atB 7).host.sem.getD 7 0 = ownerOf .b ∧ (7, (atB 7).clock) ∈ (atB 7).host.semB ∧ (atB 7).undecided 6 = false ∧
    (7, (atB 6).clock) ∉ (atB 6).host.semB ∧ (atB 6).undecided 7 = false ∧ (atB 6).host.sem.getD 7 0 ≠ ownerOf .a := by decide +kernel
/-- A record that QAPP names: armed, waiting for the page of its queue, in a context that no descriptor gives, on no page, not aligned, and
the doors of queues that are not mapped, whose page is not there, or that do not exist. -/
theorem witness_HostArm :
    let doneAs (s : State) (rcd : Addr) (code : Nat) : Bool := match s.hostArm 0 rcd with | .done _ k => k == code | .waits _ _ => false
    let arms (d : State → State) : State := hosted 1 (fun s => memAt 0x60000 (qcb 0x70000 8 0 0) (d (memAt 0x100000 (recAs 0 0 1 0) s)))
    let faults (s : State) (va : Addr) (p : FaultInfo → Bool) : Bool := match s.devTranslate 0 false .rmw va with | .error e => p e | .ok _ => false
    doneAs (arms id) 0x100000 2 = true ∧ okE ((arms id).devTranslate 0 true .rmw 0x100000) = true ∧ (arms id).host.qstat.getLsbD 8 = false ∧
    (List.range 8).all (fun k => (arms id).host.sem.getD k 0 == ownerOf .a && !(arms id).undecided k) = true ∧
    (match (arms (memAt 24 (leBytes 8 (2 ^ 45)))).hostArm 0 0x100000 with | .waits _ _ => true | .done _ _ => false) = true ∧
    ((hosted 1 id).ctxDesc 63 [100]).ok = false ∧ ((arms id).ctxDesc 0 [100]).ok = true ∧
    (match (arms id).devTranslate 0 true .rmw (2 ^ 54) with | .error e => e.cls != 0 | .ok _ => false) = true ∧
    (let repairs (s : State) : State := { s with service := { s.service with rows := [(channelOf 0x60000 / 32, channelOf 0x60000 % 32, rowOf 0x60000)] } }
     faults (repairs (arms id)) ((arms id).qcbVa 0 0) (fun e => e.cls == 0)) = true ∧
    doneAs (arms id) 0x100001 0x10 = true ∧ 8 ≤ ((0x200 : Word64).extractLsb' 6 4).toNat ∧
    faults (arms (memAt 24 (leBytes 8 (2 ^ 42 + 2 ^ 40)))) ((arms (memAt 24 (leBytes 8 (2 ^ 42 + 2 ^ 40)))).qcbVa 0 7) (fun e => e.cls != 0) = true := by
  decide +kernel

/-- DeviceEvents: a boot in progress, done and running; a line of DRAM to its last byte; a queue with a head and a core for it, and no queue; a grid
whose commit is acknowledged, which may try its record and which waits; a block that is not ready to be saved and one that is. -/
def doneCommit : Commit := { closing with awaited := [], wantTag := false, scope := 4 }
def gridOf : Grid := { record := 0x100000, enqueued := 0, raw := [], ctx := 0, sys := false, succ := 0, placedAt := 0, tags := [], commit := some doneCommit }
theorem witness_Device :
    (withD (fun s => { s with host := { s.host with bootBusy := true } })).host.bootBusy = true ∧ (withD (fun s => { s with host := { s.host with boot := 2 } })).host.boot = 2 ∧
    (0x100038 : Nat) % 64 + [(0 : Byte), 1, 2, 3, 4, 5, 6, 7].length ≤ 64 ∧ physRegion 0x100038 = .dram ∧ (withD id).rangeHeld 0x100038 8 = false ∧
    ([0, 1] : List Byte) ≠ [] ∧
    (let s := withD (fun s => { s with home := [{ sector := 32768, dirty := true, stream := false, old := none }] })
     (∃ e ∈ s.home, e.sector = 0x100000 / 32) ∧ ∀ e ∈ s.home, e.sector ≠ 0x100020 / 32) ∧
    (withD id).host.ecc.length = 8 ∧ (withD id).host.wlim.getD 7 0 = 0 ∧ (withD id).home = [] ∧
    (let s := withD (fun s => { s with grids := [gridOf] })
     let p : Party := .grid gridOf.ctx gridOf.record
     doneCommit.acked = true ∧ gridOf.succ = 0 ∧ s.mayTry p = true ∧ okE ((s.trying p).devTranslate gridOf.ctx gridOf.sys .write (gridOf.record + 60) 1) = true ∧
       ({ s with devEvents := [(.party 0 p, 0)] } : State).mayTry p = false ∧ Memory.wf s.mem = true) := by decide +kernel
/-- A queue with one record, of `code`, `nb` blocks and `flags`, while the block of core 0 belongs to context `ctx`; how its head is served. -/
def queued (code nb flags ctx : Nat) : State :=
  withD (fun s => memAt 0x60000 (qcb 0x70000 8 0 1) (memAt 0x70000 (leBytes 8 0x100000) (memAt 0x100000 (recAs code 0 nb flags) { s with
    host := { s.host with ctxen := 1 }
    cores := s.cores.map (fun c => { c with block := { c.block with launch := { c.block.launch with ctx := ctx } } }) })))
def servedAs (s : State) : Nat :=
  match s.queueHeads.2 with
  | [h] => (match s.queueHeads.1.serveHead 0 1 h with | .progress _ => 1 | .tryNext _ => 2 | .holds => 3)
  | _ => 0
theorem witness_DispensePlaces : servedAs (queued 2 1 0 1) = 1 ∧ (queued 2 1 0 1).fit 1 = true ∧ 1 / 80 = 0 := by decide +kernel
theorem witness_DispenseNext : servedAs (queued 2 1 0 0) = 2 ∧ (queued 2 1 0 0).fit 1 = true := by decide +kernel
theorem witness_DispenseHolds : servedAs (queued 2 320 8 1) = 3 ∧ (queued 2 320 8 1).fit 1 = true := by decide +kernel
theorem witness_DispenseNone : (withD id).queueHeads.2 = [] ∧ (withD id).fit 1 = true := by decide +kernel
def toSave (stop : StopState) : State := stand nop (fun w => { w with stop := stop }) (fun b => { b with stopReq := some .host, launch := { b.launch with frame := 0x200000 } })
  id
theorem witness_Save :
    ((toSave .asked).cores.find? (fun x => x.num == 0)).any (fun c => ((toSave .asked).saveSet c).any (fun x => !(toSave .asked).saveReady x)) = true ∧
    ((toSave .stopped).cores.find? (fun x => x.num == 0)).any (fun c => ((toSave .stopped).saveSet c).all (toSave .stopped).saveReady &&
      (toSave .stopped).mayTry (.save 0) && (toSave .stopped).bad.isEmpty) = true := by decide +kernel

/-! ### Results that the spec works out -/

/-- The warp after one step of `i`. -/
def after (i : Instr) (w : Warp → Warp) (p : Warp → Bool) : Bool :=
  match step (stand i w id id) with
  | .next s => has s (fun _ x => p x)
  | _ => false
def vregs (xs : List ((Nat × Nat) × Word32)) (w : Warp) : Warp := { w with v := xs.foldl (fun m x => Cells.set m (32 * x.1.1 + x.1.2) x.2) [] }
def inLanes (m : LaneMask) (w : Warp) : Warp := { w with clause := w.clause.map (fun c => { c with eff := m }) }

/-- Spec 08, the worked case of VDOT2S and VSRAR. -/
theorem test_vdot2s :
    after (.vdot2s (fA 7 5 6 0 0)) (fun w => inLanes 3 (vregs [((5, 0), 0x75307530), ((6, 0), 0x75307530), ((7, 0), 2000000000),
      ((5, 1), 0x0004FFFD), ((6, 1), 0x00060005), ((7, 1), 0xFFFFB1E0)] w)) (fun w => w.rv 7 0 == 0x7FFFFFFF && w.rv 7 1 == 0xFFFFB1E9 && w.satflag == 1) = true := by decide +kernel
theorem test_vsrar :
    after (.vsrar (fA 7 7 2 0 1)) (fun w => inLanes 3 (regs [(2, 15)] (vregs [((7, 0), 0x7FFFFFFF), ((7, 1), 0xFFFFB1E9)] w)))
      (fun w => w.rv 7 0 == 65536 && w.rv 7 1 == 0xFFFFFFFF && w.satflag == 0) = true := by decide +kernel
/-- Spec 08, the worked case of FCVT to E4M3: four elements with OF, UF, NX and IV. -/
theorem test_fcvt_e4m3 :
    after (.fcvt (fW 3 8 0 2 0x20)) (fun w => inLanes 1 (vregs [((8, 0), 0x43FA0000), ((9, 0), 0x3A800000), ((10, 0), 0xBE99999A), ((11, 0), 0x7F800001)] w))
      (fun w => w.rv 3 0 == 0x7FAA007E && w.fpflags == 0x1D) = true := by decide +kernel
/-- Spec 08, the worked case of VSLIDE. -/
theorem test_vslide :
    after (.vslide (fA 10 8 3 0 1)) (fun w => regs [(3, 3)] (vregs ((List.range 32).map (fun l => ((8, l), BitVec.ofNat 32 (100 + l))) ++
      (List.range 32).map (fun l => ((9, l), BitVec.ofNat 32 (132 + l)))) w)) (fun w => (List.range 32).all (fun l => (w.rv 10 l).toNat == 103 + l)) = true := by decide +kernel
/-- Spec 08, the worked case of VREDUCE and VSCAN: the order of the additions. -/
def four (w : Warp) : Warp := inLanes 15 (vregs [((5, 0), 0x4B800000), ((5, 1), 0x3F800000), ((5, 2), 0x3F800000), ((5, 3), 0xCB800000)] w)
theorem test_vreduce : after (.vreduce (fA 4 5 8 0 0)) four (fun w => (List.range 4).all (fun l => w.rv 4 l == 0x3F800000) && w.fpflags == flagNX.setWidth 32) = true := by decide +kernel
theorem test_vscan : after (.vscan (fA 4 5 8 0 0)) four (fun w => w.rv 4 0 == 0x4B800000 && w.rv 4 2 == 0x4B800000 && w.rv 4 3 == 0) = true := by decide +kernel
/-- Spec 07, the worked case of SBFE and SBFI. -/
theorem test_sbfe :
    after (.sbfe (fC 1 2 3 0)) (regs [(2, 0xABC123), (3, 0x70C)]) (fun w => w.rs 1 == 0xBC) = true ∧ after (.sbfe (fC 1 2 3 1)) (regs [(2, 0xABC123), (3, 0x70C)]) (fun w => w.rs 1 == 0xFFFFFFFFFFFFFFBC) = true ∧
    after (.sbfi (fC 2 0 3 0)) (regs [(2, 0xABC123), (3, 0x70C)]) (fun w => w.rs 2 == 0xA00123) = true := by decide +kernel
/-- Spec 08, the CRC-32C of "123456789"; spec 03, the rounding shifts. -/
theorem test_crc : (([0x31, 0x32, 0x33, 0x34, 0x35, 0x36, 0x37, 0x38, 0x39] : List Byte).foldl crcByte 0xFFFFFFFF) ^^^ 0xFFFFFFFF = 0xE3069283 := by decide +kernel
/-- Spec 03, the block of four q4 values and the exact sum of a commit. -/
theorem test_q4 : ((Param.ofBytes (leBytes 4 0xF40005 ++ leBytes 4 0x447A0000 ++ leBytes 4 0x3F800000 ++ leBytes 20 0)).encodeQ4
    ([0x3F666666, 0xC0266666, 0x40A00000, 0].map fmtF32.read) [0, 1, 2, 3]).val = 0x2805D1 := by decide +kernel
theorem test_exactSum : applyAll 0 0 3 0 [(0, recOf 0x4C000000 3), (0, recOf 0x3F800000 3), (0, recOf 0xCC000000 3)] = 0x3F800000 := by decide +kernel
/-- Spec 09, the worked home slices; spec 11, the worked lock word. -/
theorem test_homeSlice : homeSlice 0x100400 = 3 ∧ homeSlice 0x100800 = 8 ∧ channelOf 0x100800 = 1 ∧ channelOf 0x123400 = 70 := by decide +kernel
theorem test_lock :
    (lockRd (.ofNat 0x200000000)).new = some 0x200000001 ∧ (lockWr 1 9 (.ofNat 0x200000001)).new = some 0x600000001 ∧ (lockRd (.ofNat 0x600000001)).ok = false ∧
    (lockRel 0 3 (.ofNat 0x600000001)).new = some 0x600000000 ∧ (lockWr 2 9 (.ofNat 0x600000000)).new = some 0x0009000300000000 := by decide +kernel
/-- Spec 11, the bytes of a deferred record. -/
theorem test_record : ({ bin := 70, rcd := { word := 0x48D00, op := 2, tag := 0x07A, lo := 0x3FC00000, hi := 0 }, tagged := true } : LogRec).bytes =
    [0x00, 0x8D, 0x04, 0x00, 0x00, 0x80, 0xA0, 0x07, 0x00, 0x00, 0xC0, 0x3F, 0x00, 0x00, 0x00, 0x00] := by decide +kernel
/-- Spec 14, the worked slot: two contributions of 1.0 and 2.5, and the status entry of its timeout. -/
theorem test_slot :
    let e : GroupEntry := { entry0 1 3 false with op := 0 }
    let push (k : BitVec 6) (x : Word32) : Contribution := { contrib 1 9 with sender := k, typ := 0, chunk := 1, words := [(0, x)] }
    let x := ((Slot.open e 1 1 0).contribute (push 0 0x3F800000)).contribute (push 1 0x40200000)
    x.words.getD 0 0 = 0x40600000 ∧ x.mask = 3 ∧ x.info true = 0x0000000100020003 := by decide +kernel

/-! ### Words whose fields the spec forbids -/

/-- The words are decoded as an illegal encoding at their first word. -/
def refused (ws : List Word32) : Bool :=
  match decodeFor 128 ws with
  | some { instr := .illegalEncoding _ 0, len := n, base := b } => n == ws.length && b + 1 == n
  | _ => false
/-- The words are decoded as an instruction. -/
def taken (ws : List Word32) : Bool :=
  match decodeFor 128 ws with
  | some d => d.len == ws.length && d.instr.wellFormed
  | none => false
/-- Spec 07: an immediate beside s(b) (the worked word of R131), a signedness of 2 and 63, a condition of 10, fields that must be 0;
and the words beside them that are legal. -/
theorem test_forbiddenScalars :
    [[0x000C4141], [0xAE000000, 0x000C4140], [0x040420C2], [0x0D0420FF], [0xAE000001, 0x040420C1], [0x0E08414A], [0x0E204142], [0x0F042030],
      [0x10042001], [0x14042040], [0x12042008], [0x15042002], [0x16042001], [0xAE000000, 0x16042000]].all refused = true ∧
    [[0x000C4140], [0x000C4001], [0xAE000000, 0x000C4001], [0x040420C1], [0x0E1C4149], [0x0F04202F], [0x10042000], [0x12042007],
      [0x15042001]].all taken = true := by decide +kernel
/-- Spec 08: variants, conditions, selectors, widths, odd pairs and fields that are forbidden; and the words beside them. -/
theorem test_forbiddenVectors :
    [[0x390E1436], [0x3A241434], [0x3E081434], [0x3A641430], [0x3C101802], [0x3C101900], [0x3C101A01], [0x3C101841], [0x3D081400],
      [0xAE000000, 0x3D100400], [0x50142018], [0x50142419], [0x51081436], [0x51081431], [0x52081430], [0x5208140C], [0x520A1433], [0x55045000],
      [0x55845004], [0x55140400], [0x56140000], [0x56051002], [0x56040404], [0x57140400], [0x57044400], [0x5E081404], [0x5E081402],
      [0x5F081434], [0x5F081400]].all refused = true ∧
    [[0x390E1430], [0x3A241430], [0x3A541430], [0x3E081430], [0x3C101800], [0x3C101801], [0x3D100000], [0x50142019], [0x51081430],
      [0x55042000], [0x56041400], [0x57040400], [0x5E081400], [0x5F080000]].all taken = true := by decide +kernel
/-- ExceptionEntries: a warp that holds a handle is terminated. -/
theorem witness_Termination :
    (match (stand (.nop (fH 0 0 0 0)) id (fun b => { b with handles := b.handles.set 3 { HandleEntry.zero with own := 0, st := .owned } }) id).view with
      | some t => (flt 7 0).replayable == false && t.w.enrol == List.replicate 4 none && t.w.jobFault == none &&
          (match (t.raise (flt 7 0)).block t.core with
            | some b => (match b.warp t.w.num with
              | some w => w.life == .terminated && w.ring == [] && w.outst == none && b.handles.all (fun h => h.own != 0 || h.st == .free)
              | none => false)
            | none => false)
      | none => false) = true := by decide +kernel
/-- CacheAndBanks: a store to a fetched sector while a grid is in flight leaves the earlier form; CCTL.ifetch over it drops it. -/
theorem witness_OldCode :
    (let s := ({ State.reset.withFetchWord 32 0 with grids := [gridOf] } : State).writePhys 0x20000 [7]
     s.oldCode.length == 1 && s.oldCode.all (fun e => e.sector == 0x400 && e.bytes.take 4 == [0, 0, 0xE0, 0xF1]) &&
       s.rangeMaps 0 0x20010 1 0x400 && !s.rangeMaps 0 0x20080 128 0x400 && !s.rangeMaps 0 0x20000 0 0x400) = true := by decide +kernel

end Sys2Proof.Tests
end

section
/-!
PROOFS. The integer vector instructions of one operation per element (spec 08 R163, R166, R167; spec 03 R54, R75, R76): how a lane
operation completes, and what each element result is as an integer.
-/
namespace Sys2Proof.Machine

/-! ### Form A lane operations -/

/-- The model's cut of a word into elements is the one of `View.laneWrite` (R54). -/
theorem laneOp_eq_ok_laneWrite (f : FormA) (sh : Shape) (op : ElemOp) (t : View) : laneOp f sh op t = .ok (t.laneWrite f sh op) := by
  cases sh <;> rfl

@[simp] theorem View.laneWrite_dev (t : View) (f : FormA) (sh : Shape) (op : ElemOp) : (t.laneWrite f sh op).dev = t.dev := by
  cases sh <;> rfl

/-- An instruction whose meaning is a lane operation completes with its elements written; `hsh` and `hop` restate the shape and the
element operation in the words of the spec. -/
theorem completes_laneWrite {i : Instr} {f : FormA} {s : State} {t : View} {sh sh' : Shape} {op op' : ElemOp}
    (he : exec i s = issue i (laneOp f sh op) s) (hi : isTile i = false) (hsh : sh = sh')
    (hop : ∀ n a b d, op n a b d = op' n a b d) (h : Runs i s t) : Completes i s (t.laneWrite f sh' op') := by
  have hop : op = op' := by funext n a b d; exact hop n a b d
  subst hsh hop
  refine completes he h ?_ (by simpa using h.bad)
  rw [View.taken_of_not_tile hi, laneOp_eq_ok_laneWrite]

/-! ### Variants -/

/-- An instruction of form A that runs names one of its variants (R101). -/
theorem Runs.var_lt {i : Instr} {f : FormA} {s : State} {t : View} {n : Nat} {bsOk unary : Bool} (h : Runs i s t)
    (hc : i.conds = condA f n bsOk unary) : f.var.toNat < n := by
  obtain ⟨-, -, hwf⟩ := h
  by_contra hn
  simp [Instr.wellFormed, Instr.fieldFault, hc, condA, fld, firstFail, hn] at hwf

theorem shapeInt_eq_getD (v : BitVec 2) : shapeInt v = [Shape.one, .half, .quarter, .pair].getD v.toNat .one := by
  revert v; decide

/-- Variant 3 of the shifts is illegal, and the two sides differ there. -/
theorem shapeShift_eq_getD (v : BitVec 2) (hv : v.toNat < 3) : shapeShift v = [Shape.one, .half, .pair].getD v.toNat .one := by
  revert v; decide

theorem shapeBits_eq_ite (v : BitVec 2) : shapeBits v = if v = 1 then .pair else .one := by
  simp [shapeBits]

/-! ### Element results as integers (R75, R76) -/

section Elements
variable {n : Nat} (a b : BitVec n)

theorem elem_sub_eq_ofInt : a - b = BitVec.ofInt n ((a.toNat : Int) - b.toNat) := by
  simp [Int.sub_eq_add_neg, BitVec.ofInt_add, BitVec.ofInt_neg, BitVec.sub_eq_add_neg]

theorem elem_mul_add_eq_ofNat (d : BitVec n) : a * b + d = BitVec.ofNat n (a.toNat * b.toNat + d.toNat) := by
  simp [BitVec.ofNat_add, BitVec.ofNat_mul]

/-- The least value has no absolute value in the type, and modulo 2^w gives itself (R75). -/
theorem absW_eq_ofInt_natAbs : absW a = BitVec.ofInt n a.toInt.natAbs := by
  unfold absW
  cases hm : a.msb with
  | true =>
    have hneg : a.toInt < 0 := BitVec.toInt_neg_of_msb_true hm
    rw [Int.ofNat_natAbs_of_nonpos hneg.le, BitVec.ofInt_neg, BitVec.ofInt_toInt, if_pos rfl]
  | false =>
    have hnonneg : 0 ≤ a.toInt := BitVec.toInt_nonneg_of_msb_false hm
    rw [Int.natAbs_of_nonneg hnonneg, BitVec.ofInt_toInt, if_neg Bool.false_ne_true]

theorem shlW_eq_mul_pow (k : Nat) : shlW a k = if n ≤ k then 0 else BitVec.ofNat n (a.toNat * 2 ^ k) := by
  have hshift : a <<< k = BitVec.ofNat n (a.toNat * 2 ^ k) := BitVec.eq_of_toNat_eq (by simp [Nat.shiftLeft_eq])
  rw [shlW, hshift]

theorem shrW_eq_div_pow (k : Nat) : shrW a k = if n ≤ k then 0 else BitVec.ofNat n (a.toNat / 2 ^ k) := by
  have hshift : a >>> k = BitVec.ofNat n (a.toNat / 2 ^ k) := by
    rw [← Nat.shiftRight_eq_div_pow, ← BitVec.toNat_ushiftRight, BitVec.ofNat_toNat, BitVec.setWidth_eq]
  rw [shrW, hshift]

theorem sshiftRight_width : a.sshiftRight n = if a.msb then BitVec.allOnes n else 0 := by
  ext i hi
  rw [BitVec.getElem_sshiftRight]
  cases a.msb <;> simp

theorem sraW_eq_div_pow (k : Nat) :
    sraW a k = if n ≤ k then (if a.msb then BitVec.allOnes n else 0) else BitVec.ofInt n (a.toInt / 2 ^ k) := by
  unfold sraW
  split
  · next hk => rw [Nat.min_eq_right hk, sshiftRight_width]
  · next hk =>
    rw [Nat.min_eq_left (Nat.le_of_not_le hk), BitVec.sshiftRight_eq, Int.shiftRight_eq_div_pow]
    norm_cast

/-- The model takes the sign from the top bit, R76 from the integer. They differ at zero only, whose magnitude
`2 ^ k / 2 ^ (k + 1)` is 0. -/
theorem srarW_eq_sign_mul : srarW a b =
    BitVec.ofInt n (a.toInt.sign * ((2 * a.toInt.natAbs + 2 ^ min b.toNat n) / 2 ^ (min b.toNat n + 1) : Nat)) := by
  unfold srarW
  cases hm : a.msb with
  | true =>
    have hneg : a.toInt < 0 := BitVec.toInt_neg_of_msb_true hm
    simp [Int.sign_eq_neg_one_of_neg hneg]
  | false =>
    rcases (BitVec.toInt_nonneg_of_msb_false hm).eq_or_lt with h0 | hpos
    · have hz : 2 ^ min b.toNat n / 2 ^ (min b.toNat n + 1) = 0 :=
        Nat.div_eq_of_lt (Nat.pow_lt_pow_right (by decide) (Nat.lt_succ_self _))
      simp [← h0, hz]
    · simp [Int.sign_eq_one_of_pos hpos]

theorem length_filter_eq_sum_toNat (p : Nat → Bool) (l : List Nat) : (l.filter p).length = (l.map (fun i => (p i).toNat)).sum := by
  induction l with
  | nil => rfl
  | cons x l ih => cases hx : p x <;> simp [hx, ih, Nat.add_comm]

theorem popW_eq_sum : popW a = BitVec.ofNat n (((List.range n).map (fun i => (a.getLsbD i).toNat)).sum) := by
  rw [popW, length_filter_eq_sum_toNat]

end Elements

/-! ### The instructions -/

/-- VADD, VSUB, VMUL, VMAD and VABS (R75, R166). -/
theorem vectorArithmetic : Clause.VectorArithmetic := by
  intro f s t
  have hsh := shapeInt_eq_getD f.var
  exact ⟨completes_laneWrite rfl rfl hsh fun _ a b _ => BitVec.add_def a b,
    completes_laneWrite rfl rfl hsh fun _ a b _ => elem_sub_eq_ofInt a b,
    completes_laneWrite rfl rfl hsh fun _ a b _ => BitVec.mul_def,
    completes_laneWrite rfl rfl hsh fun _ a b d => elem_mul_add_eq_ofNat a b d,
    completes_laneWrite rfl rfl hsh fun _ a _ _ => absW_eq_ofInt_natAbs a⟩

/-- The bitwise instructions, the shifts and VPOPC (R75, R76, R166, R167): a shift that runs has a variant below 3, so that its shape
is the listed one. -/
theorem vectorBitsShifts : Clause.VectorBitsShifts := by
  intro f s t
  have hbits := shapeBits_eq_ite f.var
  have hsh {i : Instr} {n : Nat} {bsOk unary : Bool} (hc : i.conds = condA f n bsOk unary) (hn : n ≤ 3) (h : Runs i s t) :=
    shapeShift_eq_getD f.var ((h.var_lt hc).trans_le hn)
  refine ⟨?vand, ?vor, ?vxor, ?vshl, ?vshr, ?vsra, ?vsrar, ?vpopc⟩
  case vand => exact completes_laneWrite rfl rfl hbits fun _ _ _ _ => rfl
  case vor => exact completes_laneWrite rfl rfl hbits fun _ _ _ _ => rfl
  case vxor => exact completes_laneWrite rfl rfl hbits fun _ _ _ _ => rfl
  case vshl => exact fun h => completes_laneWrite rfl rfl (hsh rfl (by decide) h) (fun _ a b _ => shlW_eq_mul_pow a b.toNat) h
  case vshr => exact fun h => completes_laneWrite rfl rfl (hsh rfl (by decide) h) (fun _ a b _ => shrW_eq_div_pow a b.toNat) h
  case vsra => exact fun h => completes_laneWrite rfl rfl (hsh rfl (by decide) h) (fun _ a b _ => sraW_eq_div_pow a b.toNat) h
  case vsrar => exact fun h => completes_laneWrite rfl rfl (hsh rfl (by decide) h) (fun _ a b _ => srarW_eq_sign_mul a b) h
  case vpopc =>
    have hpop : (if f.var == 1 then Shape.half else .one) = if f.var = 1 then .half else .one := by simp
    exact completes_laneWrite rfl rfl hpop fun _ a _ _ => popW_eq_sum a

/-- Settles O15: a lane operation writes each element of its shape, and each element result is the spec's integer modulo 2^w. -/
theorem vectorIntegers : Obligations.VectorIntegers := ⟨vectorArithmetic, vectorBitsShifts⟩

end Sys2Proof.Machine
end

section
/-!
PROOFS. The scalar instructions (spec 07 R131 to R139; spec 03 R75; spec 04 R88, R96, R98, R101): how a scalar instruction completes,
operand B and each result as numbers, and the words that the decoder refuses, alone or after an IMM.
-/
namespace Sys2Proof.Machine

/-! ### How a scalar instruction completes -/

/-- An instruction outside the rewrite windows whose operation ends well, with the device as it was, completes. -/
theorem completes_plain {i : Instr} {s : State} {t t' : View} {body : View → Res} (he : exec i s = issue i body s)
    (hi : isTile i = false) (h : Runs i s t) (hb : body t = .ok t') (hd : t'.dev = t.dev) : Completes i s t' :=
  completes he h (by rw [View.taken_of_not_tile hi, hb]) (hd ▸ h.bad)

/-- An instruction that writes `x` to s(d) completes with `y` there; `hxy` restates the result in the words of the spec. -/
theorem completes_putS {i : Instr} {s : State} {t : View} {body : View → Res} {d : Nat} {x y : Word64}
    (he : exec i s = issue i body s) (hi : isTile i = false) (hb : body t = t.putS d x) (hxy : x = y) (h : Runs i s t) :
    Completes i s (t.setW (t.w.ws d y)) :=
  completes_plain he hi h (hxy ▸ hb) rfl

/-! ### Immediates as numbers (R96) -/

section Immediates
variable {k : Nat} (x : BitVec k) (p : BitVec 24)

theorem ofInt_immInt_none : BitVec.ofInt 64 (immInt x none) = x.signExtend 64 := rfl

theorem ofInt_immInt_some : BitVec.ofInt 64 (immInt x (some p)) = (p ++ x).signExtend 64 := by
  have hp : (p ++ x).toInt = p.toInt * 2 ^ k + x.toNat := by
    simp [BitVec.toInt_append, Int.mul_comm]
  simp [BitVec.signExtend, immInt, hp]

theorem ofNat_immNat_none : BitVec.ofNat 64 (immNat x none) = x.setWidth 64 := by
  simp [immNat]

theorem ofNat_immNat_some : BitVec.ofNat 64 (immNat x (some p)) = (p ++ x).setWidth 64 := by
  have hp : (p ++ x).toNat = x.toNat + p.toNat * 2 ^ k := by
    rw [BitVec.toNat_append, ← Nat.shiftLeft_add_eq_or_of_lt x.isLt, Nat.shiftLeft_eq, Nat.add_comm]
  rw [← BitVec.ofNat_toNat, hp]
  rfl

end Immediates

/-! ### Operand B (R131) -/

theorem operandB_register (w : Warp) {f : FormC} (sg : Bool) (hi : f.imm = none) (hf : f.fn = 0) :
    w.operandB f sg = w.rs f.b.toNat := by
  simp [Warp.operandB, hi, hf]

theorem operandB_immediate (w : Warp) {f : FormC} (sg : Bool) (h : f.imm ≠ none ∨ f.fn ≠ 0) :
    w.operandB f sg = if sg then BitVec.ofInt 64 (immInt f.fn f.imm) else BitVec.ofNat 64 (immNat f.fn f.imm) := by
  have h : (f.imm.isSome || f.fn != 0) = true := by
    simpa [Option.isSome_iff_ne_none] using h
  rw [Warp.operandB, if_pos h]

/-- Operand B, sign-extended or zero-extended (R131). -/
theorem operandB_values : Clause.OperandB := by
  intro w f sg
  refine ⟨operandB_register w sg, fun hi hf => ?_, fun p hp => ?_⟩
  · rw [operandB_immediate w sg (.inr hf), hi, ofInt_immInt_none, ofNat_immNat_none]
  · rw [operandB_immediate w sg (.inl (by simp [hp])), hp, ofInt_immInt_some, ofNat_immNat_some]

/-- Operand b of the vector instructions (R54, R88, R163). -/
theorem vectorOperandB : Clause.VectorOperandB := by
  intro w f l
  refine ⟨fun h => ?_, fun h => ?_⟩ <;> simp [Warp.opB, Warp.opB64, Warp.rv64, h]

/-! ### Decoding a scalar word -/

/-- The scalar rows of the opcode map in the order of their opcodes, from 0x00 to 0x16 (R99). -/
def scalarRows : List (FormC → Instr) :=
  [.sadd, .ssub, .smul, .smulh, .sdiv, .srem, .sand, .sor, .sxor, .sshl, .sshr, .ssra, .smin, .smax, .scmp, .ssel, .smov, .sli, .saddr,
    .sclz, .spopc, .sbfe, .sbfi]

/-- The opcode of the word is the one of the scalar row `row`. -/
def IsRow (w : Word32) (row : FormC → Instr) : Prop := scalarRows[opByte w]? = some row

section Decoding
variable {w : Word32} {row : FormC → Instr}

theorem isRow_of_opByte {k : Nat} (hw : opByte w = k) (hk : scalarRows[k]? = some row) : IsRow w row := by
  rw [IsRow, hw, hk]

theorem IsRow.opByte_lt (h : IsRow w row) : opByte w < 23 := (List.getElem?_eq_some_iff.1 h).1

theorem IsRow.ofBase_eq (h : IsRow w row) (imm : Option (BitVec 24)) : ofBase w 0#32 imm none = some (row (.read w imm)) := by
  have hlt := h.opByte_lt
  unfold IsRow at h
  unfold ofBase
  generalize opByte w = n at h hlt
  interval_cases n <;> cases h <;> rfl

theorem IsRow.asPrefix_eq (h : IsRow w row) : asPrefix w = none := by
  have hlt := h.opByte_lt
  unfold asPrefix
  split
  · omega
  · omega
  · rfl

theorem IsRow.hasExtWord_eq (h : IsRow w row) : hasExtWord (opByte w) = false := by
  have hlt := h.opByte_lt
  generalize opByte w = n at hlt
  interval_cases n <;> rfl

theorem IsRow.decode_alone (h : IsRow w row) (rest : List Word32) :
    decode (w :: rest) = some { instr := row (.read w none), len := 1, base := 0 } := by
  have hop : ¬ 0xF0 ≤ opByte w := by have := h.opByte_lt; omega
  simp [decode, takePrefixes, h.asPrefix_eq, h.hasExtWord_eq, hop, firstImm, firstExt, h.ofBase_eq, badPrefix]

theorem asPrefix_imm (p : BitVec 24) : asPrefix (0xAE#8 ++ p) = some (.imm p) := by
  have hop : opByte (0xAE#8 ++ p) = 0xAE := congrArg BitVec.toNat BitVec.extractLsb'_append_eq_left
  have hp : (0xAE#8 ++ p).extractLsb' 0 24 = p := BitVec.extractLsb'_append_eq_right
  rw [asPrefix, hop, hp]
  rfl

/-- After an IMM the row is decoded with its payload if its opcode takes one, and the IMM is illegal if not (R96, R98). -/
theorem IsRow.decode_imm (h : IsRow w row) (p : BitVec 24) (rest : List Word32) :
    decode ((0xAE#8 ++ p) :: w :: rest) =
      some (if (row (.read w (some p))).immOk then { instr := row (.read w (some p)), len := 2, base := 1 }
        else { instr := .illegalEncoding 0x0C 0, len := 2, base := 1 }) := by
  have hop : ¬ 0xF0 ≤ opByte w := by have := h.opByte_lt; omega
  cases hok : (row (.read w (some p))).immOk <;>
    simp [decode, takePrefixes, asPrefix_imm, h.asPrefix_eq, h.hasExtWord_eq, hop, firstImm, firstExt, h.ofBase_eq, badPrefix, hok]

end Decoding

/-! ### Words the decoder refuses (R98, R101) -/

theorem firstFail_eq_some_of_mem {c : Cond} {l : List Cond} (hc : c ∈ l) (hf : c.1 = false) : ∃ det, firstFail l = some det := by
  induction l with
  | nil => cases hc
  | cons x l ih =>
    obtain ⟨ok, d⟩ := x
    cases hok : ok with
    | false => exact ⟨d, by simp [firstFail]⟩
    | true =>
      have hl : c ∈ l := (List.mem_cons.1 hc).resolve_left (by rintro rfl; simp [hok] at hf)
      simpa [firstFail] using ih hl

/-- One of the instruction's field conditions does not hold. -/
def Breached (i : Instr) : Prop := ∃ c ∈ i.conds, c.1 = false

theorem Breached.fieldFault {i : Instr} (h : Breached i) (regs : Nat) : ∃ det, i.fieldFault regs = some det := by
  obtain ⟨c, hc, hf⟩ := h
  exact firstFail_eq_some_of_mem (List.mem_append_left _ (List.mem_append_left _ hc)) hf

theorem fieldFault_illegalEncoding (det : BitVec 16) (k regs : Nat) : (Instr.illegalEncoding det k).fieldFault regs = none := rfl

section Refused
variable {w : Word32} {row : FormC → Instr}

theorem IsRow.illegal (h : IsRow w row) (hb : Breached (row (.read w none))) : Clause.Illegal [] w := by
  intro rest
  obtain ⟨det, hdet⟩ := hb.fieldFault 128
  exact ⟨det, by simp [decodeFor, h.decode_alone, hdet]⟩

theorem IsRow.noImm_of_breached (h : IsRow w row) (hok : ∀ f, (row f).immOk = true)
    (hb : ∀ p, Breached (row (.read w (some p)))) : Clause.NoImm w := by
  intro p rest
  obtain ⟨det, hdet⟩ := (hb p).fieldFault 128
  exact ⟨det, by simp [decodeFor, h.decode_imm, hok, hdet]⟩

theorem IsRow.noImm (h : IsRow w row) (hok : ∀ f, (row f).immOk = false) : Clause.NoImm w := by
  intro p rest
  refine ⟨0x0C, ?_⟩
  simp [decodeFor, h.decode_imm, hok, fieldFault_illegalEncoding]

end Refused

/-! ### Groups of rows with the same fields (R131, R134, R137) -/

theorem operandB_rows : ∀ k ∈ [0x00, 0x01, 0x02, 0x06, 0x07, 0x08, 0x09, 0x0A, 0x0B], ∃ row, scalarRows[k]? = some row ∧
    ∀ f, (row f).conds = [fld ((f.imm.isNone && f.fn == 0) || f.b == 0)] ∧ (row f).immOk = true := by
  intro k hk
  fin_cases hk <;> exact ⟨_, rfl, fun _ => ⟨rfl, rfl⟩⟩

theorem signed_rows : ∀ k ∈ [0x03, 0x04, 0x05, 0x0C, 0x0D], ∃ row, scalarRows[k]? = some row ∧
    ∀ f, (row f).conds = [fld (f.fn.toNat ≤ 1)] ∧ (row f).immOk = false := by
  intro k hk
  fin_cases hk <;> exact ⟨_, rfl, fun _ => ⟨rfl, rfl⟩⟩

theorem unary_rows : ∀ k ∈ [0x10, 0x13, 0x14], ∃ row, scalarRows[k]? = some row ∧
    ∀ f, (row f).conds = [fld (f.b == 0), fld (f.fn == 0)] := by
  intro k hk
  fin_cases hk <;> exact ⟨_, rfl, fun _ => rfl⟩

theorem immediateFree_rows : ∀ k ∈ [0x0E, 0x0F, 0x10, 0x12, 0x13, 0x14, 0x15, 0x16], ∃ row, scalarRows[k]? = some row ∧
    ∀ f, (row f).immOk = false := by
  intro k hk
  fin_cases hk <;> exact ⟨_, rfl, fun _ => rfl⟩

/-! ### Operand B stands alone (R131), and the signedness (R134) -/

/-- An immediate B stands in place of s(b), never beside it (R131). -/
theorem operandB_fields : Clause.OperandBFields := by
  intro w op hop hb
  obtain ⟨row, hk, hrow⟩ := operandB_rows op hop
  have hw : IsRow w row := hk
  refine ⟨fun hfn => hw.illegal ?_, hw.noImm_of_breached (fun f => (hrow f).2) fun p => ?_⟩
  · simpa [Breached, hrow, fld, FormC.read] using ⟨hfn, hb⟩
  · simpa [Breached, hrow, fld, FormC.read] using hb

/-- Settles O13: operand B by its three cases, and the decoder refuses one beside s(b). -/
theorem operandsB : Obligations.OperandsB := ⟨operandB_values, operandB_fields, vectorOperandB⟩

/-- SMULH, SDIV, SREM, SMIN and SMAX name a signedness of 0 or 1 and take no immediate (R134). -/
theorem scalarSignedness : Clause.ScalarSignedness := by
  intro w hop
  obtain ⟨row, hk, hrow⟩ := signed_rows _ hop
  have hw : IsRow w row := hk
  refine ⟨fun hfn => hw.illegal ?_, hw.noImm fun f => (hrow f).2⟩
  have hbad : ¬ (w.extractLsb' 0 6).toNat ≤ 1 := by omega
  simpa [Breached, hrow, fld, FormC.read] using hbad

/-! ### Scalar results as integers (R75, R133, R134) -/

section Integers
variable (x y : Word64)

theorem sdivValue_zero (sg : Bool) : sdivValue sg x 0 = BitVec.allOnes 64 := rfl

theorem sdivValue_signed (hy : y ≠ 0) : sdivValue true x y = BitVec.ofInt 64 (x.toInt.tdiv y.toInt) := by
  rw [sdivValue, if_neg hy, if_pos rfl]

theorem sdivValue_unsigned (hy : y ≠ 0) : sdivValue false x y = BitVec.ofNat 64 (x.toNat / y.toNat) := by
  rw [sdivValue, if_neg hy, if_neg Bool.false_ne_true, BitVec.udiv_def]

theorem sremValue_zero (sg : Bool) : sremValue sg x 0 = x := rfl

theorem sremValue_signed (hy : y ≠ 0) : sremValue true x y = BitVec.ofInt 64 (x.toInt.tmod y.toInt) := by
  rw [sremValue, if_neg hy, if_pos rfl]

theorem sremValue_unsigned (hy : y ≠ 0) : sremValue false x y = BitVec.ofNat 64 (x.toNat % y.toNat) := by
  rw [sremValue, if_neg hy, if_neg Bool.false_ne_true, BitVec.umod_def]

theorem sminValue_signed : sminValue true x y = BitVec.ofInt 64 (min x.toInt y.toInt) := by
  rcases lt_or_ge x.toInt y.toInt with h | h
  · simp [sminValue, BitVec.slt_iff_toInt_lt, h, min_eq_left h.le]
  · simp [sminValue, BitVec.slt_iff_toInt_lt, h.not_gt, min_eq_right h]

theorem sminValue_unsigned : sminValue false x y = BitVec.ofNat 64 (min x.toNat y.toNat) := by
  rcases lt_or_ge x.toNat y.toNat with h | h
  · simp [sminValue, BitVec.ult_iff_lt, BitVec.lt_def, h, min_eq_left h.le]
  · simp [sminValue, BitVec.ult_iff_lt, BitVec.lt_def, h.not_gt, min_eq_right h]

theorem smaxValue_signed : smaxValue true x y = BitVec.ofInt 64 (max x.toInt y.toInt) := by
  rcases lt_or_ge y.toInt x.toInt with h | h
  · simp [smaxValue, BitVec.slt_iff_toInt_lt, h, max_eq_left h.le]
  · simp [smaxValue, BitVec.slt_iff_toInt_lt, h.not_gt, max_eq_right h]

theorem smaxValue_unsigned : smaxValue false x y = BitVec.ofNat 64 (max x.toNat y.toNat) := by
  rcases lt_or_ge y.toNat x.toNat with h | h
  · simp [smaxValue, BitVec.ult_iff_lt, BitVec.lt_def, h, max_eq_left h.le]
  · simp [smaxValue, BitVec.ult_iff_lt, BitVec.lt_def, h.not_gt, max_eq_right h]

end Integers

/-- SADD to SXOR (R133). -/
theorem scalarArithmetic : Clause.ScalarArithmetic := by
  intro f s t
  exact ⟨completes_putS rfl rfl rfl (BitVec.add_def _ _), completes_putS rfl rfl rfl (elem_sub_eq_ofInt _ _),
    completes_putS rfl rfl rfl BitVec.mul_def, completes_putS rfl rfl rfl rfl, completes_putS rfl rfl rfl rfl,
    completes_putS rfl rfl rfl rfl⟩

/-- The shifts by an unsigned operand B (R75, R133). -/
theorem scalarShifts : Clause.ScalarShifts := by
  intro f s t
  exact ⟨completes_putS rfl rfl rfl (shlW_eq_mul_pow _ _), completes_putS rfl rfl rfl (shrW_eq_div_pow _ _),
    completes_putS rfl rfl rfl (sraW_eq_div_pow _ _)⟩

/-- A value that depends on the signedness that fn names, case by case (R134). -/
theorem signedness_eq_ite {op : Bool → Word64} {u v : Word64} (fn : BitVec 6) (hs : op true = u) (hn : op false = v) :
    op (fn == 0) = if fn = 0 then u else v := by
  by_cases hf : fn = 0
  · rw [beq_iff_eq.2 hf, hs, if_pos hf]
  · rw [beq_eq_false_iff_ne.2 hf, hn, if_neg hf]

/-- The four clauses on a division, for a property `C` of its result: `z` is what it gives for the divisor 0, `m` for −2^63 ÷ −1. -/
theorem division_cases {op : Bool → Word64 → Word64 → Word64} {C : Word64 → Prop} {fn : BitVec 6} {a b z m u v : Word64}
    (h : C (op (fn == 0) a b)) (hz : ∀ sg, op sg a 0 = z) (hs : b ≠ 0 → op true a b = u) (hn : b ≠ 0 → op false a b = v)
    (hm : op true (BitVec.intMin 64) (BitVec.allOnes 64) = m) :
    (b = 0 → C z) ∧ (b ≠ 0 → fn = 0 → C u) ∧ (b ≠ 0 → fn ≠ 0 → C v) ∧
      (fn = 0 → a = BitVec.intMin 64 → b = BitVec.allOnes 64 → C m) := by
  refine ⟨fun hb => ?_, fun hb hf => ?_, fun hb hf => ?_, fun hf ha hb => ?_⟩
  · rwa [hb, hz] at h
  · rwa [beq_iff_eq.2 hf, hs hb] at h
  · rwa [beq_eq_false_iff_ne.2 hf, hn hb] at h
  · rwa [beq_iff_eq.2 hf, ha, hb, hm] at h

/-- The instructions whose signedness fn names (R75, R134). -/
theorem scalarDivision : Clause.ScalarDivision := by
  intro f s t a b put
  refine ⟨?smulh, fun h => ?sdiv, fun h => ?srem, ?smin, ?smax⟩
  case smulh => exact completes_putS rfl rfl rfl (signedness_eq_ite (op := (mulhValue · a b)) f.fn rfl rfl)
  case sdiv =>
    exact division_cases (C := fun q => Completes (.sdiv f) s (put q)) (completes_putS rfl rfl rfl rfl h) (sdivValue_zero a)
      (sdivValue_signed a b) (sdivValue_unsigned a b) rfl
  case srem =>
    exact division_cases (C := fun r => Completes (.srem f) s (put r)) (completes_putS rfl rfl rfl rfl h) (sremValue_zero a)
      (sremValue_signed a b) (sremValue_unsigned a b) rfl
  case smin =>
    exact completes_putS rfl rfl rfl (signedness_eq_ite (op := (sminValue · a b)) f.fn (sminValue_signed a b) (sminValue_unsigned a b))
  case smax =>
    exact completes_putS rfl rfl rfl (signedness_eq_ite (op := (smaxValue · a b)) f.fn (smaxValue_signed a b) (smaxValue_unsigned a b))

/-- Settles O8: each result is the spec's integer, and the decoder refuses a signedness above 1 and an immediate. -/
theorem scalarIntegers : Obligations.ScalarIntegers := ⟨scalarArithmetic, scalarShifts, scalarDivision, scalarSignedness⟩

/-! ### Comparison and selection (R135, R136) -/

theorem scmpValue_eq_getD (x y : Word64) {c : Nat} (hc : c < 10) : scmpValue c x y =
    [x == y, x != y, decide (x.toInt < y.toInt), decide (x.toInt ≤ y.toInt), decide (y.toInt < x.toInt), decide (y.toInt ≤ x.toInt),
      decide (x.toNat < y.toNat), decide (x.toNat ≤ y.toNat), decide (y.toNat < x.toNat), decide (y.toNat ≤ x.toNat)].getD c false := by
  interval_cases c <;> rfl

/-- The inversion of fn[3] applies to each lane's bit (R136). -/
theorem getLsbD_ite_not (neg : Bool) (p : LaneMask) {l : Nat} (hl : l < 32) :
    (if neg then ~~~p else p).getLsbD l = (p.getLsbD l != neg) := by
  cases neg <;> simp [hl]

theorem mem_lanes {e : LaneMask} {l : Nat} : l ∈ lanes e ↔ l < 32 ∧ e.getLsbD l = true := by
  rw [lanes, List.mem_filter, List.mem_range]

theorem headD_lanes_lt (e : LaneMask) : (lanes e).headD 0 < 32 := by
  cases h : lanes e with
  | nil => decide
  | cons l ls => exact (mem_lanes.1 (h ▸ List.mem_cons_self : l ∈ lanes e)).1

section Select
variable (e p : LaneMask) (neg : Bool)

/-- A mask meets E where some lane of E has its bit set. -/
theorem any_lanes (q : LaneMask) (f : Nat → Bool) (hf : ∀ l < 32, q.getLsbD l = f l) : (lanes e).any f = (e &&& q != 0) := by
  have hz : e &&& q = 0 ↔ ∀ l ∈ lanes e, f l = false := by
    rw [BitVec.eq_of_getLsbD_eq_iff]
    refine forall_congr' fun l => ?_
    by_cases hl : l < 32
    · simp [mem_lanes, hl, ← hf l hl]
    · simp [mem_lanes, hl]
  rw [Bool.eq_iff_iff, bne_iff_ne, Ne, hz, List.any_eq_true]
  simp

theorem all_lanes (q : LaneMask) (f : Nat → Bool) (hf : ∀ l < 32, q.getLsbD l = f l) : (lanes e).all f = (e &&& ~~~q == 0) := by
  rw [List.all_eq_not_any_not, any_lanes e (~~~q) _ fun l hl => by simp [hl, ← hf l hl], bne, Bool.not_not]

theorem sselCond_low : sselCond 0 e (if neg then ~~~p else p) = (p.getLsbD ((lanes e).headD 0) != neg) :=
  getLsbD_ite_not neg p (headD_lanes_lt e)

theorem sselCond_any : sselCond 1 e (if neg then ~~~p else p) = (lanes e).any (fun l => p.getLsbD l != neg) :=
  (any_lanes e _ _ fun _ => getLsbD_ite_not neg p).symm

theorem sselCond_all : sselCond 2 e (if neg then ~~~p else p) = (lanes e).all (fun l => p.getLsbD l != neg) :=
  (all_lanes e _ _ fun _ => getLsbD_ite_not neg p).symm

end Select

/-- SCMP and SSEL (R135, R136). -/
theorem scalarCompareSelect : Clause.ScalarCompareSelect := by
  intro f s t a b conds p bit
  refine ⟨fun h hc => ?scmp, fun h => ?ssel⟩
  case scmp =>
    refine completes_plain rfl rfl h ?_ rfl
    rw [← scmpValue_eq_getD a b hc]
  case ssel =>
    have hsel {c : Bool} (hcond : sselCond (f.fn.extractLsb' 4 2).toNat t.eff (if f.fn.getLsbD 3 then ~~~p else p) = c) :
        Completes (.ssel f) s (t.setW (t.w.ws f.d.toNat (if c then a else b))) :=
      completes_putS rfl rfl rfl (by rw [hcond]) h
    refine ⟨fun hm => hsel ?_, fun hm => hsel ?_, fun hm => hsel ?_⟩ <;> rw [hm]
    · exact sselCond_low t.eff p _
    · exact sselCond_any t.eff p _
    · exact sselCond_all t.eff p _

/-! ### Moves, counts and addresses (R137, R138) -/

section Counts
variable {n : Nat} (x : BitVec n)

/-- The bits from the top down, as the model counts them. -/
theorem clz_eq_findIdx : clz x = (List.range n).findIdx (fun i => x.getLsbD (n - 1 - i)) := by
  have hle := List.findIdx_le_length (p := fun i => x.getLsbD (n - 1 - i)) (xs := List.range n)
  simpa [clz, List.takeWhile_eq_take_findIdx_not] using hle

theorem clz_le : clz x ≤ n := by
  rw [clz_eq_findIdx]
  exact List.findIdx_le_length.trans_eq List.length_range

theorem getMsbD_of_lt_clz {i : Nat} (hi : i < clz x) : x.getMsbD i = false := by
  rw [clz_eq_findIdx] at hi
  have hbit := List.not_of_lt_findIdx hi
  rw [List.getElem_range] at hbit
  rw [BitVec.getMsbD_eq_getLsbD, hbit, Bool.and_false]

theorem getMsbD_clz (h : clz x < n) : x.getMsbD (clz x) = true := by
  have hbit : x.getLsbD (n - 1 - clz x) = true := by
    have hlt : (List.range n).findIdx (fun i => x.getLsbD (n - 1 - i)) < (List.range n).length := by
      rwa [← clz_eq_findIdx, List.length_range]
    have hfound := List.findIdx_getElem (w := hlt)
    rwa [List.getElem_range, ← clz_eq_findIdx] at hfound
  rw [BitVec.getMsbD_eq_getLsbD, hbit, decide_eq_true h]
  rfl

theorem popcount_eq_sum : popcount x = ((List.range n).map (fun i => (x.getLsbD i).toNat)).sum :=
  length_filter_eq_sum_toNat _ _

end Counts

theorem saddr_eq (x y : Word64) (fn : BitVec 6) : ((x + (y <<< (fn.extractLsb' 0 3).toNat)).extractLsb' 0 55).setWidth 64 =
    BitVec.ofNat 64 ((x.toNat + y.toNat * 2 ^ (fn.toNat % 8)) % 2 ^ 55) := by
  apply BitVec.eq_of_toNat_eq
  simp [Nat.shiftLeft_eq]

/-- SMOV, SLI, SADDR, SCLZ and SPOPC (R137, R138). -/
theorem scalarMoves : Clause.ScalarMoves := by
  intro f s t a put
  refine ⟨completes_putS rfl rfl rfl rfl, completes_putS rfl rfl rfl ?sli, completes_putS rfl rfl rfl (saddr_eq _ _ _),
    fun h => ⟨clz a, completes_putS rfl rfl rfl rfl h, clz_le a, fun i => getMsbD_of_lt_clz a, getMsbD_clz a⟩,
    completes_putS rfl rfl rfl (congrArg _ (popcount_eq_sum a))⟩
  case sli =>
    cases f.imm with
    | none => exact ofInt_immInt_none _
    | some p => exact ofInt_immInt_some _ p

/-! ### Bit fields (R139) -/

section Fields
variable (x y spec : Word64)

theorem fieldPos_eq : (spec.extractLsb' 0 6).toNat = spec.toNat % 64 := by simp

theorem fieldLen_eq : (spec.extractLsb' 8 6).toNat = spec.toNat / 256 % 64 := by simp [Nat.shiftRight_eq_div_pow]

theorem shiftLeft_eq_ofNat_mul (pos : Nat) : x <<< pos = BitVec.ofNat 64 (x.toNat * 2 ^ pos) :=
  BitVec.eq_of_toNat_eq (by simp [Nat.shiftLeft_eq])

/-- The model takes the sign of the field from its top bit, the spec's text from its size. -/
theorem bfe64_eq_ite (fn : BitVec 6) :
    let pos := spec.toNat % 64
    let len := spec.toNat / 256 % 64 + 1
    let fld := x.toNat / 2 ^ pos % 2 ^ len
    bfe64 (fn == 1) x spec =
      if fn = 1 ∧ 2 ^ (len - 1) ≤ fld then BitVec.ofInt 64 ((fld : Int) - 2 ^ len) else BitVec.ofNat 64 fld := by
  intro pos len fld
  have hfld : fld < 2 ^ (len - 1 + 1) := Nat.mod_lt _ (Nat.two_pow_pos _)
  have htop : fld.testBit (len - 1) = decide (2 ^ (len - 1) ≤ fld) := by
    rw [Bool.eq_iff_iff, decide_eq_true_iff]
    exact ⟨Nat.ge_two_pow_of_testBit, fun hle => Nat.testBit_of_two_pow_le_and_two_pow_add_one_gt hle hfld⟩
  have hmodel : bfe64 (fn == 1) x spec =
      if (fn == 1) && fld.testBit (len - 1) then BitVec.ofInt 64 ((fld : Int) - 2 ^ len) else BitVec.ofNat 64 fld := by
    simp only [bfe64, fieldPos_eq, fieldLen_eq, BitVec.toNat_ushiftRight, Nat.shiftRight_eq_div_pow, len, fld, pos]
  rw [hmodel, htop]
  simp

theorem bfi64_eq_or :
    let pos := spec.toNat % 64
    let m := BitVec.ofNat 64 ((2 ^ (spec.toNat / 256 % 64 + 1) - 1) * 2 ^ pos)
    bfi64 y x spec = (y &&& ~~~m) ||| (BitVec.ofNat 64 (x.toNat * 2 ^ pos) &&& m) := by
  simp only [bfi64, fieldMask, fieldPos_eq, fieldLen_eq, shiftLeft_eq_ofNat_mul]

end Fields

/-- SBFE and SBFI (R139). -/
theorem scalarFields : Clause.ScalarFields := by
  intro f s t
  exact ⟨completes_putS rfl rfl rfl (bfe64_eq_ite _ _ _), completes_putS rfl rfl rfl (bfi64_eq_or _ _ _)⟩

/-! ### Fields that must be zero or in range (R135 to R139) -/

theorem extractLsb'_3_3_eq_zero_iff (x : BitVec 6) : x.extractLsb' 3 3 = 0#3 ↔ x.toNat < 8 := by
  revert x; decide

theorem extractLsb'_4_2_eq_three_iff (x : BitVec 6) : x.extractLsb' 4 2 = 3#2 ↔ 48 ≤ x.toNat := by
  revert x; decide

/-- Each opcode's fields that must be zero or in range (R135 to R139); the row's conditions on them are its `conds`, restated. -/
theorem scalarFieldRanges : Clause.ScalarFieldRanges := by
  intro w op fn
  have hrow {k : Nat} {row : FormC → Instr} (hk : scalarRows[k]? = some row) (h : op = k) : IsRow w row := isRow_of_opByte h hk
  refine ⟨fun h hr => ?scmp, fun h hr => ?ssel, fun h hr => ?unary, fun h hr => ?saddr, fun h hr => ?sbfe, fun h hr => ?sbfi,
    fun h => ?imm⟩
  case scmp =>
    have hconds f : (Instr.scmp f).conds = [fld (f.d.extractLsb' 3 3 == 0), fld (f.fn.toNat ≤ 9)] := rfl
    refine (hrow (row := .scmp) rfl h).illegal ?_
    have hbad : ¬ (w.extractLsb' 18 6).extractLsb' 3 3 = 0#3 ∨ ¬ fn ≤ 9 := by
      rw [extractLsb'_3_3_eq_zero_iff]
      omega
    simpa [Breached, hconds, fld, FormC.read, fn] using hbad
  case ssel =>
    have hconds f : (Instr.ssel f).conds = [fld (f.fn.extractLsb' 4 2 != 3)] := rfl
    refine (hrow (row := .ssel) rfl h).illegal ?_
    simpa [Breached, hconds, fld, FormC.read] using (extractLsb'_4_2_eq_three_iff _).2 hr
  case unary =>
    obtain ⟨row, hk, hconds⟩ := unary_rows op h
    have hsplit : w.extractLsb' 6 6 ++ w.extractLsb' 0 6 = w.extractLsb' 0 12 :=
      BitVec.extractLsb'_append_extractLsb'_eq_extractLsb' rfl
    have hbad : w.extractLsb' 6 6 = 0 → w.extractLsb' 0 6 ≠ 0 := fun hb hf => hr (by rw [← hsplit, hb, hf]; rfl)
    refine (hrow hk rfl).illegal ?_
    simpa [Breached, hconds, fld, FormC.read, ← imp_iff_not_or] using hbad
  case saddr =>
    have hconds f : (Instr.saddr f).conds = [fld (f.fn.extractLsb' 3 3 == 0)] := rfl
    refine (hrow (row := .saddr) rfl h).illegal ?_
    simpa [Breached, hconds, fld, FormC.read] using mt (extractLsb'_3_3_eq_zero_iff _).1 (Nat.not_lt.2 hr)
  case sbfe =>
    have hconds f : (Instr.sbfe f).conds = [fld (f.fn.toNat ≤ 1)] := rfl
    refine (hrow (row := .sbfe) rfl h).illegal ?_
    have hbad : ¬ fn ≤ 1 := by omega
    simpa [Breached, hconds, fld, FormC.read, fn] using hbad
  case sbfi =>
    have hconds f : (Instr.sbfi f).conds = [fld (f.fn == 0)] := rfl
    refine (hrow (row := .sbfi) rfl h).illegal ?_
    simpa [Breached, hconds, fld, FormC.read, fn, ← BitVec.toNat_inj] using hr
  case imm =>
    obtain ⟨row, hk, hok⟩ := immediateFree_rows op h
    exact (hrow hk rfl).noImm hok

/-- Settles O9: the results of R135 to R139, and the fields and immediates that the decoder refuses. -/
theorem scalarSelectsMoves : Obligations.ScalarSelectsMoves :=
  ⟨scalarCompareSelect, scalarMoves, scalarFields, scalarFieldRanges⟩

end Sys2Proof.Machine
end

section
/-!
PROOFS. The integer vector instructions in a named type (spec 08 R163, R166, R168; spec 03 R75): how they complete, each element result
as an integer, and how a word of an integer vector instruction is decoded or refused (spec 04 R98, R99, R101).
-/
namespace Sys2Proof.Machine

/-! ### What a running instruction's fields meet (R101) -/

theorem Runs.not_breached {i : Instr} {s : State} {t : View} (h : Runs i s t) : ¬ Breached i := by
  obtain ⟨-, -, hwf⟩ := h
  intro hb
  obtain ⟨det, hdet⟩ := hb.fieldFault 128
  simp [Instr.wellFormed, hdet] at hwf

theorem Runs.cond {i : Instr} {s : State} {t : View} (h : Runs i s t) {c : Cond} (hc : c ∈ i.conds) : c.1 = true := by
  by_contra hf
  exact h.not_breached ⟨c, hc, Bool.eq_false_iff.2 hf⟩

/-! ### How these instructions complete -/

theorem completes_vectorWrite {i : Instr} {s : State} {t : View} {body : View → Res} {d : Nat} {g g' : Nat → Word32}
    (he : exec i s = issue i body s) (hi : isTile i = false) (hb : body t = .ok (t.vectorWrite d g)) (hg : ∀ l, g l = g' l)
    (h : Runs i s t) : Completes i s (t.vectorWrite d g') := by
  obtain rfl : g = g' := funext hg
  exact completes_plain he hi h hb rfl

theorem completes_flaggedWrite {i : Instr} {s : State} {t : View} {body : View → Res} {d : Nat} {g g' : Nat → Flagged Word32}
    (he : exec i s = issue i body s) (hi : isTile i = false) (hb : body t = t.putFlagged d g) (hg : ∀ l, g l = g' l)
    (h : Runs i s t) : Completes i s (t.flaggedWrite d g') := by
  obtain rfl : g = g' := funext hg
  exact completes_plain he hi h hb rfl

/-! ### Element results in a named type (R75, R166) -/

section NamedTypes
variable (sg : Bool) {n : Nat} (a b : BitVec n)

theorem ofInt_intW : BitVec.ofInt n (intW sg a) = a := by
  cases sg <;> simp [intW]

theorem ltW_eq_decide : ltW sg a b = decide (intW sg a < intW sg b) := by
  cases sg
  · simp [ltW, intW, BitVec.ult]
  · simp [ltW, intW, BitVec.slt]

theorem mulhW_eq_ofInt : mulhW sg a b = BitVec.ofInt n (intW sg a * intW sg b / 2 ^ n) := by
  cases sg with
  | true => rfl
  | false =>
    rw [mulhW, if_neg Bool.false_ne_true, ← BitVec.ofInt_natCast]
    norm_cast

theorem minW_eq_ofInt : (if ltW sg b a then b else a) = BitVec.ofInt n (min (intW sg a) (intW sg b)) := by
  rw [ltW_eq_decide]
  rcases lt_or_ge (intW sg b) (intW sg a) with h | h
  · rw [min_eq_right h.le, ofInt_intW, if_pos (decide_eq_true h)]
  · rw [min_eq_left h, ofInt_intW, if_neg (by simpa using h)]

theorem maxW_eq_ofInt : (if ltW sg a b then b else a) = BitVec.ofInt n (max (intW sg a) (intW sg b)) := by
  rw [ltW_eq_decide]
  rcases lt_or_ge (intW sg a) (intW sg b) with h | h
  · rw [max_eq_right h.le, ofInt_intW, if_pos (decide_eq_true h)]
  · rw [max_eq_left h, ofInt_intW, if_neg (by simpa using h)]

end NamedTypes

/-! ### Saturation (R75, R168) -/

/-- The value of the named type nearest `z`, and whether that is another, by the three places where `z` can lie (R75). -/
def saturate (sg : Bool) (n : Nat) (z : Int) : BitVec n × Bool :=
  if z < loW sg n then (BitVec.ofInt n (loW sg n), true)
  else if hiW sg n < z then (BitVec.ofInt n (hiW sg n), true)
  else (BitVec.ofInt n z, false)

theorem loW_le_hiW (sg : Bool) (n : Nat) : loW sg n ≤ hiW sg n := by
  have hw : (0 : Int) < 2 ^ n := by positivity
  have hh : (0 : Int) < 2 ^ (n - 1) := by positivity
  cases sg with
  | true => exact (neg_neg_of_pos hh).le.trans (Int.le_sub_one_of_lt hh)
  | false => exact Int.le_sub_one_of_lt hw

theorem saturate_eq (sg : Bool) (n : Nat) (z : Int) : saturate sg n z = (clampW sg n z, outsideW sg n z) := by
  have hle := loW_le_hiW sg n
  unfold saturate clampW outsideW
  split
  · next hlo => rw [max_eq_right hlo.le, min_eq_left hle, decide_eq_true hlo, Bool.true_or]
  · next hlo =>
    rw [max_eq_left (not_lt.1 hlo), decide_eq_false hlo, Bool.false_or]
    split
    · next hhi => rw [min_eq_right hhi.le, decide_eq_true hhi]
    · next hhi => rw [min_eq_left (not_lt.1 hhi), decide_eq_false hhi]

/-- VADDS and VSUBS saturate the word, or each half by itself (R54, R166). -/
theorem satElems_eq_saturate (v : BitVec 2) (op : Int → Int → Int) (a b : Word32) :
    let elem (n : Nat) (x y : BitVec n) := saturate (signedNamed v) n (op (intW (signedNamed v) x) (intW (signedNamed v) y))
    let half (k : Nat) := elem 16 (a.extractLsb' (16 * k) 16) (b.extractLsb' (16 * k) 16)
    satElems v op a b =
      if v.toNat < 2 then { val := (elem 32 a b).1, fp := 0, sat := (elem 32 a b).2 }
      else { val := (half 1).1 ++ (half 0).1, fp := 0, sat := (half 1).2 || (half 0).2 } := by
  intro elem half
  simp only [elem, half, saturate_eq]
  by_cases hv : v.toNat < 2
  · rw [satElems, shapeNamed, if_pos (Nat.le_of_lt_succ hv), if_pos hv]
  · rw [satElems, shapeNamed, if_neg (by omega), if_neg hv]

theorem clampW_i32 (z : Int) :
    clampW true 32 z = BitVec.ofInt 32 (if z < -2 ^ 31 then -2 ^ 31 else if 2 ^ 31 ≤ z then 2 ^ 31 - 1 else z) := by
  have hsat : clampW true 32 z = (saturate true 32 z).1 := by rw [saturate_eq]
  have hhi : hiW true 32 < z ↔ 2 ^ 31 ≤ z := Int.sub_one_lt_iff
  have hlo : z < loW true 32 ↔ z < -2 ^ 31 := Iff.rfl
  rw [hsat, saturate]
  simp only [hlo, hhi]
  split
  · rfl
  · split <;> rfl

theorem outsideW_i32 (z : Int) : outsideW true 32 z = decide (z < -2 ^ 31 ∨ 2 ^ 31 ≤ z) := by
  have hhi : hiW true 32 < z ↔ 2 ^ 31 ≤ z := Int.sub_one_lt_iff
  rw [outsideW, ← Bool.decide_or]
  exact decide_eq_decide.2 (or_congr_right hhi)

theorem intW_bne_one (v : BitVec 2) {n : Nat} (x : BitVec n) : intW (v != 1) x = if v == 1 then (x.toNat : Int) else x.toInt := by
  rw [bne, intW]
  cases v == 1 <;> rfl

theorem intW_beq_zero (v : BitVec 2) {n : Nat} (x : BitVec n) : intW (v == 0) x = if v != 0 then (x.toNat : Int) else x.toInt := by
  rw [bne, intW]
  cases v == 0 <;> rfl

/-! ### Decoding a word of an integer vector instruction -/

/-- The opcode of the word is one of an integer vector instruction, which `row` gives with the payload of an IMM (R99). -/
def IsVectorRow (w : Word32) (row : Option (BitVec 24) → Instr) : Prop :=
  (0x28 ≤ opByte w ∧ opByte w < 0x40) ∧ ∀ imm, ofBase w 0#32 imm none = some (row imm)

section VectorDecoding
variable {w : Word32} {row : Option (BitVec 24) → Instr}

theorem IsVectorRow.asPrefix_eq (h : IsVectorRow w row) : asPrefix w = none := by
  obtain ⟨⟨-, hlt⟩, -⟩ := h
  unfold asPrefix
  split
  · omega
  · omega
  · rfl

theorem IsVectorRow.hasExtWord_eq (h : IsVectorRow w row) : hasExtWord (opByte w) = false := by
  obtain ⟨⟨hle, hlt⟩, -⟩ := h
  generalize opByte w = n at hle hlt
  interval_cases n <;> rfl

theorem IsVectorRow.decode_alone (h : IsVectorRow w row) (rest : List Word32) :
    decode (w :: rest) = some { instr := row none, len := 1, base := 0 } := by
  have hop : ¬ 0xF0 ≤ opByte w := by have := h.1.2; omega
  simp [decode, takePrefixes, h.asPrefix_eq, h.hasExtWord_eq, hop, firstImm, firstExt, h.2, badPrefix]

theorem IsVectorRow.decode_imm (h : IsVectorRow w row) (p : BitVec 24) (hok : (row (some p)).immOk = true) (rest : List Word32) :
    decode ((0xAE#8 ++ p) :: w :: rest) = some { instr := row (some p), len := 2, base := 1 } := by
  have hop : ¬ 0xF0 ≤ opByte w := by have := h.1.2; omega
  simp [decode, takePrefixes, asPrefix_imm, h.asPrefix_eq, h.hasExtWord_eq, hop, firstImm, firstExt, h.2, badPrefix, hok]

theorem IsVectorRow.illegal (h : IsVectorRow w row) (hb : Breached (row none)) : Clause.Illegal [] w := by
  intro rest
  obtain ⟨det, hdet⟩ := hb.fieldFault 128
  exact ⟨det, by simp [decodeFor, h.decode_alone, hdet]⟩

theorem IsVectorRow.illegalBoth (h : IsVectorRow w row) (hok : ∀ p, (row (some p)).immOk = true) (hb : ∀ imm, Breached (row imm)) :
    Clause.IllegalBoth w := by
  refine ⟨h.illegal (hb none), fun p rest => ?_⟩
  obtain ⟨det, hdet⟩ := (hb (some p)).fieldFault 128
  exact ⟨det, by simp [decodeFor, h.decode_imm p (hok p), hdet]⟩

end VectorDecoding

/-- The rows of the opcode map from 0x39 to 0x3E (R99). -/
def vectorRows : List (Word32 → Option (BitVec 24) → Instr) :=
  [fun w _ => .vdot2s (.read w), fun w _ => .vcmp (.read w), fun w _ => .vsel (.read w), fun w _ => .vmov (.read w),
    fun w imm => .vli (.read w imm), fun w _ => .vbfe (.read w)]

theorem isVectorRow_of_opByte {w : Word32} {k : Nat} {row : Word32 → Option (BitVec 24) → Instr} (h : opByte w = 0x39 + k)
    (hk : vectorRows[k]? = some row) : IsVectorRow w (row w) := by
  have hlt : k < 6 := (List.getElem?_eq_some_iff.1 hk).1
  refine ⟨by omega, fun imm => ?_⟩
  unfold ofBase
  generalize opByte w = n at h
  subst h
  interval_cases k <;> cases hk <;> rfl

/-- A variant that the opcode's table does not have is a field that is out of range (R163). -/
theorem breached_of_le_var {i : Instr} {f : FormA} {n : Nat} {bsOk unary : Bool} (hc : condA f n bsOk unary ⊆ i.conds)
    (hv : n ≤ f.var.toNat) : Breached i :=
  ⟨fld (f.var.toNat < n), hc List.mem_cons_self, decide_eq_false hv.not_gt⟩

/-! ### VMULH to VDOT2S -/

/-- Settles O14: each element result is the spec's integer in the named type, a result outside the type is the bound it lies beyond,
and variant 3 of VDOT2S is a field that the decoder refuses. -/
theorem vectorNamedTypes : Obligations.VectorNamedTypes := by
  intro f s t signed sh val lo hi one sat half dot
  have hsh : shapeNamed f.var = sh := by
    simp only [sh, shapeNamed, Nat.lt_succ_iff]
  refine ⟨?vmulh, ?vmin, ?vmax, ?vadds, ?vsubs, ?vdot2s, ?variant⟩
  case vmulh => exact completes_laneWrite rfl rfl hsh fun _ a b _ => mulhW_eq_ofInt signed a b
  case vmin => exact completes_laneWrite rfl rfl hsh fun _ a b _ => minW_eq_ofInt signed a b
  case vmax => exact completes_laneWrite rfl rfl hsh fun _ a b _ => maxW_eq_ofInt signed a b
  case vadds => exact completes_flaggedWrite rfl rfl rfl fun l => satElems_eq_saturate f.var (· + ·) _ _
  case vsubs => exact completes_flaggedWrite rfl rfl rfl fun l => satElems_eq_saturate f.var (· - ·) _ _
  case vdot2s =>
    refine completes_flaggedWrite rfl rfl rfl fun l => ?_
    have hdot : dot2 f.var (t.w.rv f.a.toNat l) (t.w.opB f l) (t.w.rv f.d.toNat l) = dot l := by
      simp only [dot2, intW_bne_one, intW_beq_zero]
      rfl
    simp only [hdot, clampW_i32, outsideW_i32]
  case variant =>
    intro w hop hvar
    exact (isVectorRow_of_opByte (k := 0) (congrArg BitVec.toNat hop) rfl).illegal
      (breached_of_le_var (List.Subset.refl _) (congrArg BitVec.toNat hvar).ge)

end Sys2Proof.Machine
end

section
/-!
PROOFS. The vector instructions that select and move (spec 08 R169 to R173; spec 04 R96, R101): what each writes, and the field values
that the decoder refuses.
-/
namespace Sys2Proof.Machine

/-! ### What they write (R169 to R173) -/

theorem intW_beq {v c : BitVec 2} {n : Nat} (x : BitVec n) : intW (v == c) x = if v = c then x.toInt else (x.toNat : Int) := by
  simp [intW]

/-- The conditions .eq to .ge (R170); the model reads .le and .ge as the failure of the opposite comparison. -/
theorem vcmpValue_eq_getD (sg : Bool) (a b : Word32) {c : Nat} (hc : c ≤ 5) : vcmpValue c sg a b =
    [a == b, a != b, decide (intW sg a < intW sg b), decide (intW sg a ≤ intW sg b), decide (intW sg b < intW sg a),
      decide (intW sg b ≤ intW sg a)].getD c false := by
  have hge (x y : Word32) : (!ltW sg x y) = decide (intW sg y ≤ intW sg x) := by
    rw [ltW_eq_decide, ← decide_not, decide_eq_decide, not_lt]
  interval_cases c
  · rfl
  · rfl
  · exact ltW_eq_decide sg a b
  · exact hge b a
  · exact ltW_eq_decide sg b a
  · exact hge a b

/-- The top bit of a number of `k + 1` bits says which half of their range it lies in. -/
theorem testBit_top {x k : Nat} (hx : x < 2 ^ (k + 1)) : x.testBit k = decide (2 ^ k ≤ x) := by
  rw [Bool.eq_iff_iff, decide_eq_true_iff]
  exact ⟨Nat.ge_two_pow_of_testBit, fun hle => Nat.testBit_of_two_pow_le_and_two_pow_add_one_gt hle hx⟩

/-- The model takes the sign of the field from its top bit, the spec's text from its size. -/
theorem bfe32_eq_ite (v : BitVec 2) (x spec : Word32) :
    let len := spec.toNat / 256 % 32 + 1
    let fld := x.toNat / 2 ^ (spec.toNat % 32) % 2 ^ len
    bfe32 (v == 1) x spec =
      if v = 1 ∧ 2 ^ (len - 1) ≤ fld then BitVec.ofInt 32 ((fld : Int) - 2 ^ len) else BitVec.ofNat 32 fld := by
  intro len fld
  have hpos : (spec.extractLsb' 0 5).toNat = spec.toNat % 32 := by simp
  have hlen : (spec.extractLsb' 8 5).toNat + 1 = len := by simp [len, Nat.shiftRight_eq_div_pow]
  have htop : fld.testBit (len - 1) = decide (2 ^ (len - 1) ≤ fld) := testBit_top (Nat.mod_lt _ (Nat.two_pow_pos _))
  have hmodel : bfe32 (v == 1) x spec =
      if (v == 1) && fld.testBit (len - 1) then BitVec.ofInt 32 ((fld : Int) - 2 ^ len) else BitVec.ofNat 32 fld := by
    simp only [bfe32, hpos, hlen, BitVec.toNat_ushiftRight, Nat.shiftRight_eq_div_pow, fld]
  rw [hmodel, htop]
  simp

/-- The low 32 bits of the immediate, of 10 bits or of 34 with IMM (R96, R173). -/
theorem ofInt32_immInt (x : BitVec 10) (imm : Option (BitVec 24)) : BitVec.ofInt 32 (immInt x imm) =
    match imm with
    | none => x.signExtend 32
    | some p => (p ++ x).setWidth 32 := by
  cases imm with
  | none => rfl
  | some p =>
    have hp : (p ++ x).toInt = p.toInt * 2 ^ 10 + x.toNat := by
      rw [BitVec.toInt_append, if_neg (by decide), Int.mul_comm]
    have hlow : (p ++ x).setWidth 32 = BitVec.ofInt 32 (p ++ x).toInt :=
      (BitVec.signExtend_eq_setWidth_of_le _ (by decide)).symm
    exact (hlow.trans (congrArg _ hp)).symm

/-- A scalar register's number takes six of the seven bits of the field (R172). -/
theorem toNat_mod_64_of_getLsbD_six {a : BitVec 7} (h : a.getLsbD 6 = false) : a.toNat % 64 = a.toNat := by
  revert a; decide

/-- VCMP, VSEL and VBFE, VMOV, and VLI. -/
theorem selectMoveValues : Clause.SelectMoveValues := by
  refine ⟨?formA, ?vmov, ?vli⟩
  case formA =>
    intro f s t a b val conds len fld
    refine ⟨fun h => ?vcmp, ?vsel, ?vbfe⟩
    case vcmp =>
      have hc : (f.d.extractLsb' 3 4).toNat ≤ 5 :=
        of_decide_eq_true (h.cond (List.mem_append_right _ (List.mem_singleton_self _)))
      refine completes_plain rfl rfl h ?_ rfl
      simp only [View.putP, vcmpValue_eq_getD _ _ _ hc, intW_beq]
      rfl
    case vsel => exact completes_vectorWrite rfl rfl rfl fun l => rfl
    case vbfe => exact completes_vectorWrite rfl rfl rfl fun l => bfe32_eq_ite f.var (a l) (b l)
  case vmov =>
    intro f s t h
    refine ⟨fun hs => ?group, fun hs => ?scalar⟩
    case group => exact completes_plain rfl rfl h (if_pos (beq_iff_eq.2 hs)) rfl
    case scalar =>
      have hsel : ¬ (f.sel == 0) = true := by simp [hs]
      have hc : (if f.sel == 0 then f.wd == f.wa else f.wd.toNat ≤ 1 && f.wa == 0 && !f.a.getLsbD 6) = true :=
        h.cond (List.mem_cons_of_mem _ (List.mem_singleton_self _))
      have ha : f.a.getLsbD 6 = false := by
        rw [if_neg hsel] at hc
        simpa using (Bool.and_eq_true_iff.1 hc).2
      refine completes_plain rfl rfl h ((if_neg hsel).trans ?_) rfl
      rw [toNat_mod_64_of_getLsbD_six ha]
  case vli =>
    intro f s t
    exact completes_vectorWrite rfl rfl rfl fun l => ofInt32_immInt f.imm10 f.imm

/-! ### Fields that must be zero or in range (R169, R170, R172, R173) -/

theorem two_le_toNat_of_getLsbD_one {v : BitVec 2} (h : v.getLsbD 1 = true) : 2 ≤ v.toNat := by
  revert v; decide

/-- Each opcode's fields that must be zero or in range; the row's conditions on them are its `conds`, restated. -/
theorem selectMoveFields : Clause.SelectMoveFields := by
  intro w op sel
  have hrow {k : Nat} {row : Word32 → Option (BitVec 24) → Instr} (hk : vectorRows[k]? = some row) (h : op = 0x39 + k) :
      IsVectorRow w (row w) := isVectorRow_of_opByte h hk
  have hvmov (h : op = 0x3C) := hrow (k := 3) rfl h
  have hconds f : (Instr.vmov f).conds = [fld (f.sel.toNat ≤ 1),
    fld (if f.sel == 0 then f.wd == f.wa else f.wd.toNat ≤ 1 && f.wa == 0 && !f.a.getLsbD 6)] := rfl
  refine ⟨fun h hb => ?variant, fun h hc => ?condition, fun h hs => ?selector, fun h hs hw => ?group, fun h hs hf => ?scalar,
    fun h ha => ?vli⟩
  case variant =>
    have hvar : 2 ≤ (w.extractLsb' 1 2).toNat := two_le_toNat_of_getLsbD_one (by simpa using hb)
    rcases List.mem_pair.1 h with h | h
    · exact (hrow (k := 1) rfl h).illegal (breached_of_le_var (List.subset_append_left _ _) hvar)
    · exact (hrow (k := 5) rfl h).illegal (breached_of_le_var (List.Subset.refl _) hvar)
  case condition =>
    have hbad : ¬ ((w.extractLsb' 17 7).extractLsb' 3 4).toNat ≤ 5 := by
      have hcond : (w.extractLsb' 17 7).extractLsb' 3 4 = w.extractLsb' 20 4 := by
        ext i hi
        simp [show 3 + i < 7 by omega, ← Nat.add_assoc]
      rw [hcond]
      exact Nat.not_le.2 hc
    exact (hrow (k := 1) rfl h).illegal ⟨_, List.mem_append_right _ (List.mem_singleton_self _), decide_eq_false hbad⟩
  case selector =>
    refine (hvmov h).illegal ⟨_, List.mem_cons_self, decide_eq_false ?_⟩
    exact Nat.not_le.2 hs
  case group =>
    refine (hvmov h).illegal ?_
    have hsel : w.extractLsb' 0 6 = 0#6 := BitVec.eq_of_toNat_eq hs
    simpa [Breached, hconds, fld, FormW.read, hsel] using hw
  case scalar =>
    refine (hvmov h).illegal ?_
    have hsel : w.extractLsb' 0 6 = 1#6 := BitVec.eq_of_toNat_eq hs
    have hbad : (w.extractLsb' 8 2).toNat ≤ 1 → w.extractLsb' 6 2 = 0 → w.getLsbD 16 = true := by
      intro hwd hwa
      rcases hf with hb | hb | hb
      · have : 2 ≤ (w.extractLsb' 8 2).toNat := two_le_toNat_of_getLsbD_one (by simpa using hb)
        omega
      · exact absurd hwa hb
      · exact hb
    simpa [Breached, hconds, fld, FormW.read, hsel] using hbad
  case vli =>
    exact (hrow (k := 4) rfl h).illegalBoth (fun _ => rfl) fun _ => ⟨_, List.mem_singleton_self _, beq_eq_false_iff_ne.2 ha⟩

/-- Settles O16: what each writes is the spec's text, and the decoder refuses the fields that it forbids. -/
theorem vectorSelectMove : Obligations.VectorSelectMove := ⟨selectMoveValues, selectMoveFields⟩

end Sys2Proof.Machine
end
